-- ==== Sys2Proof/Word.lean ====
section
/-! DEFINITION. The word types of IRTX. -/

namespace Sys2Proof

/-- A command word `cmd[63:0]`, bit 63 the most significant (30_encoding.md R83). -/
abbrev CmdWord := BitVec 64

/-- The encoder's working width, W = 32 (00_scope.md R10). -/
abbrev Work := BitVec 32

end Sys2Proof
end

