-- ==== Sys2Proof/Syntax.lean ====
section
/-! DEFINITION. The commands of IRTX, one constructor for each row of spec/opcode_table.json. -/

namespace Sys2Proof

/-- The four commands (00_scope.md R4), with the operands 30_encoding.md R87 assembles.
An operand the spec reads as two's complement is an integer; its range is `Instr.wellFormed`'s. -/
inductive Instr where
  /-- `CFG frequency_khz` (40_carrier_generator.md R110). -/
  | cfg (frequencyKhz : Int)
  /-- `SEND protocol_id, value, bit_count, is_repeat` (42_protocol_encoder.md R151). -/
  | send (protocolId : BitVec 4) (value : Work) (bitCount : Int) (isRepeat : Bool)
  /-- `MARK duration_us` (41_pulse_sequencer.md R136). -/
  | mark (durationUs : Int)
  /-- `SPACE duration_us` (41_pulse_sequencer.md R137). -/
  | space (durationUs : Int)
deriving DecidableEq, Repr

/-- Pseudo-instruction `OFF` (30_encoding.md R93). -/
def Instr.off : Instr := .space 0

/-- Pseudo-instruction `RESEND proto, value, bit_count`: a repeat frame (30_encoding.md R93). -/
def Instr.resend (protocolId : BitVec 4) (value : Work) (bitCount : Int) : Instr :=
  .send protocolId value bitCount true

end Sys2Proof
end

