-- ==== Sys2Proof/WellFormed.lean ====
section
/-! DEFINITION. The ranges of the operands (30_encoding.md R87). A well-formed command is one that
a command word can carry. -/

namespace Sys2Proof

/-- The range of an s`w` operand: -2^(w-1) to 2^(w-1) - 1. -/
def inSigned (w : Nat) (z : Int) : Bool :=
  decide (-(2 ^ (w - 1) : Int) ≤ z) && decide (z < (2 ^ (w - 1) : Int))

/-- Every operand lies in the range R87 gives it. `protocolId`, `value` and `isRepeat` are in
range by their types. -/
def Instr.wellFormed : Instr → Bool
  | .cfg f => inSigned 32 f
  | .send _ _ n _ => inSigned 8 n
  | .mark d => inSigned 32 d
  | .space d => inSigned 32 d

end Sys2Proof
end

