-- ==== Sys2Proof/Decode.lean ====
section
/-! DEFINITION. The decoder and the encoder (30_encoding.md R83 to R95), and the opcode map R88 as
a table of its own. -/

namespace Sys2Proof

/-- The field `w[hi:lo]` with `n = hi - lo + 1` bits (00_scope.md R13). -/
def bits (w : CmdWord) (lo n : Nat) : BitVec n := w.extractLsb' lo n

/-- The decoder of R94, total on all 2^64 words; `none` is its verdict ILLEGAL (R90). -/
def decode (w : CmdWord) : Option Instr :=
  if bits w 60 4 = 0x1#4 then
    if bits w 32 28 ≠ 0 then none
    else some (.cfg (bits w 0 32).toInt)
  else if bits w 60 4 = 0x2#4 then
    if bits w 49 7 ≠ 0 ∨ bits w 32 8 ≠ 0 then none
    else some (.send (bits w 56 4) (bits w 0 32) (bits w 40 8).toInt (w.getLsbD 48))
  else if bits w 60 4 = 0x3#4 then
    if bits w 32 28 ≠ 0 then none
    else some (.mark (bits w 0 32).toInt)
  else if bits w 60 4 = 0x4#4 then
    if bits w 32 28 ≠ 0 then none
    else some (.space (bits w 0 32).toInt)
  else none

/-- Formats C and D (R84, R86): OP, 28 zero bits, one s32 operand. -/
def encodeWide (op : BitVec 4) (z : Int) : CmdWord := op ++ 0#28 ++ BitVec.ofInt 32 z

/-- Format S (R85). -/
def encodeSend (p : BitVec 4) (v : Work) (n : Int) (r : Bool) : CmdWord :=
  0x2#4 ++ p ++ 0#7 ++ BitVec.ofBool r ++ BitVec.ofInt 8 n ++ 0#8 ++ v

/-- The encoder of R95. -/
def encode : Instr → CmdWord
  | .cfg f => encodeWide 0x1#4 f
  | .send p v n r => encodeSend p v n r
  | .mark d => encodeWide 0x3#4 d
  | .space d => encodeWide 0x4#4 d

/-- The mnemonics of the opcode map. -/
inductive Mnemonic where
  | CFG | SEND | MARK | SPACE
deriving DecidableEq, Repr

/-- The mnemonic of a command. -/
def Instr.mnemonic : Instr → Mnemonic
  | .cfg _ => .CFG
  | .send _ _ _ _ => .SEND
  | .mark _ => .MARK
  | .space _ => .SPACE

/-- A row of the opcode map R88. -/
structure OpcodeRow where
  mnemonic : Mnemonic
  pattern : CmdWord
  mask : CmdWord
deriving DecidableEq, Repr

/-- The opcode map, complete (R88; `pattern` is the table's column "match"). -/
def opcodeMap : List OpcodeRow :=
  [⟨.CFG, 0x1000000000000000, 0xFFFFFFFF00000000⟩,
   ⟨.SEND, 0x2000000000000000, 0xF0FE00FF00000000⟩,
   ⟨.MARK, 0x3000000000000000, 0xFFFFFFFF00000000⟩,
   ⟨.SPACE, 0x4000000000000000, 0xFFFFFFFF00000000⟩]

/-- "A word matches a row when `(cmd AND mask) = match`" (R88). -/
abbrev OpcodeRow.Matches (r : OpcodeRow) (w : CmdWord) : Prop := w &&& r.mask = r.pattern

/-- The command the decoder reads from an instruction whose low `nbits` bits are `w` and whose
other bits are 0, numbered as spec/opcode_table.json numbers them. A command is one 64-bit word
(R83, R91), with no byte order (20_memory.md R62). -/
def decodeTableWord (nbits w : Nat) : Option Instr :=
  decode (BitVec.ofNat 64 (w % 2 ^ nbits))

end Sys2Proof
end

