-- ==== Sys2Proof/Config.lean ====
section
/-! DEFINITION. What the spec leaves to the implementation: the two OPEN parameters, and the free
values. Each is an opaque constant: no proof can see what it is. -/

namespace Sys2Proof

/-- The OPEN parameters of an IRTX (00_scope.md R8, R9), each a positive integer. -/
structure Params where
  /-- `F_SYS`, the system clock frequency in hertz (R8). -/
  fSys : ℕ+
  /-- `CW`, the width in bits of the counter, period and compare registers (R9). -/
  cw : ℕ+
deriving DecidableEq, Repr, Inhabited

/-- The parameters of this IRTX. The spec gives them no value (R8, R9, D25): log entry 1. -/
opaque Config.params : Params

/-- The free values of the draw of (CNT, DIR) after an accepted CFG (40_carrier_generator.md R118,
U10): the n-th draw's phase, before it is brought into the range the spec allows. Log entry 2. -/
opaque Config.freePhase : Nat → Nat

end Sys2Proof
end

