-- ==== Sys2Proof/Machine/State.lean ====
section
/-! DEFINITION. The state of IRTX as plain data (10_state.md R20 to R48), its reset value, and the
reasons a step can stop. -/

namespace Sys2Proof.Machine

/-- `PIN_DIR` (R22). -/
inductive PinDir where
  | input | output
deriving DecidableEq, Repr

/-- `TMODE` (R24): no waveform, or phase-correct PWM with TOP as the period bound. -/
inductive TMode where
  | off | pcpwm
deriving DecidableEq, Repr

/-- `PRESC` (R25): the counter's clock select. -/
inductive Presc where
  | stopped | div1
deriving DecidableEq, Repr

/-- `DIR` (R30): the counter's direction. -/
inductive Dir where
  | up | down
deriving DecidableEq, Repr

/-- `PH` (R34): the next step of the running command. -/
inductive Phase where
  | idle | hdrM | hdrS | bitM | bitS | trlM | trlS | done
deriving DecidableEq, Repr

/-- The kind of a pulse (00_scope.md R17). -/
inductive PulseKind where
  | mark | space
deriving DecidableEq, Repr

/-- A pulse: its kind and its length in microseconds (00_scope.md R17). -/
structure Pulse where
  kind : PulseKind
  us : Nat
deriving DecidableEq, Repr

/-- `M(d)` (R17). -/
def Pulse.m (d : Nat) : Pulse := ⟨.mark, d⟩

/-- `S(d)` (R17). -/
def Pulse.s (d : Nat) : Pulse := ⟨.space, d⟩

/-- The value of the output pin (41_pulse_sequencer.md R140); `z` is "not driven by the block". -/
inductive PinLevel where
  | z | low | high
deriving DecidableEq, Repr

/-- How a command ends (60_exceptions.md R181). -/
inductive Response where
  | ok | eOpcode | eFreq | eProtocol | eBitcount | eDuration
deriving DecidableEq, Repr

/-- What the host does while the block is idle (41_pulse_sequencer.md R138 (c), 20_memory.md R61):
it lets one tick pass, reads STATUS, or presents a command word. -/
inductive HostMove where
  | letTick
  | readStatus
  | present (w : CmdWord)
deriving DecidableEq, Repr

/-- The state: the fourteen registers (R22 to R35), the observations (R45, R46, and the events
"response given" and "STATUS read" of 30_encoding.md R81), the parameters, the inputs still to
come, and the model's own count of draws. -/
structure State where
  /-- F_SYS and CW (00_scope.md R8, R9); no step writes them. Log entry 1. -/
  params : Params
  /-- #0 PIN_DIR (R22). -/
  pinDir : PinDir
  /-- #1 PIN_LVL (R23). -/
  pinLvl : Bool
  /-- #2 TMODE (R24). -/
  tmode : TMode
  /-- #3 PRESC (R25). -/
  presc : Presc
  /-- #4 TOP, CW bits (R26). -/
  top : Nat
  /-- #5 CMP, CW bits (R27). -/
  cmp : Nat
  /-- #6 CONN (R28): the output channel is connected. -/
  conn : Bool
  /-- #7 CNT, CW bits (R29). -/
  cnt : Nat
  /-- #8 DIR (R30). -/
  dir : Dir
  /-- #9 DLY, ticks the current delay still has to run (R31). -/
  dly : Nat
  /-- #10 SHR, the encoder's working register (R32). -/
  shr : Work
  /-- #11 BCNT, data bits still to transmit (R33). -/
  bcnt : BitVec 6
  /-- #12 PH (R34). -/
  ph : Phase
  /-- #13 ERR, the response code of the last command that ended (R35). -/
  err : BitVec 4
  /-- TRACE, the pulses emitted, oldest first (R45). -/
  trace : List Pulse
  /-- WAVE, the pin's value during each elapsed tick, oldest first (R46). -/
  wave : List PinLevel
  /-- NOW, ticks since reset (R46). -/
  now : Nat
  /-- The responses given, oldest first (30_encoding.md R81, R82). Log entry 9. -/
  responses : List Response
  /-- The STATUS values the host has read, oldest first (30_encoding.md R81). Log entry 8. -/
  statusReads : List (BitVec 6)
  /-- The host's coming moves, next first; with none left it lets time pass. Log entry 5. -/
  host : List HostMove
  /-- The level of `rst` at each coming step, next first; low when the list ends. Log entry 6. -/
  rstIn : List Bool
  /-- How many free values the run has used (the model's own field). Log entry 2. -/
  draws : Nat
deriving DecidableEq, Repr

/-- The machine right after reset (R47, R211). SHR is unspecified there: log entry 3. -/
def State.reset : State where
  params := Config.params
  pinDir := .input
  pinLvl := false
  tmode := .off
  presc := .stopped
  top := 0
  cmp := 0
  conn := false
  cnt := 0
  dir := .up
  dly := 0
  shr := 0
  bcnt := 0
  ph := .idle
  err := 0
  trace := []
  wave := []
  now := 0
  responses := []
  statusReads := []
  host := []
  rstIn := []
  draws := 0

/-- The faults: none. The spec has no fault and no stuck state; a rejected command is a next state
(60_exceptions.md R191, R201). Nobody raises one, which is safe. -/
inductive Fault where
deriving DecidableEq, Repr

/-- Why a command is given no meaning. -/
inductive Refusal where
  /-- An instruction whose arm has no meaning yet: raised by `exec`'s arms alone, by name. Safe. -/
  | notModelled (mnemonic : String)
  /-- `exec` was asked to accept a command while PH is not IDLE, where a host has no move and the
  handshake holds it (30_encoding.md R82): raised by `whenReady`, reached by no `step`. Safe:
  log entry 7. -/
  | notReady
deriving DecidableEq, Repr

/-- The outcome of one step. -/
abbrev Result := Host.Outcome State Fault Refusal

end Sys2Proof.Machine
end

