-- ==== Sys2Proof/Machine/Flags.lean ====
section
/-! DEFINITION. The codes of the registers' fields and of the responses, and the STATUS output.
IRTX has no condition codes (10_state.md R39). -/

namespace Sys2Proof.Machine

/-- The field code of PIN_DIR (10_state.md R22). -/
def PinDir.code : PinDir → BitVec 1
  | .input => 0
  | .output => 1

/-- The field code of TMODE (10_state.md R24). -/
def TMode.code : TMode → BitVec 1
  | .off => 0
  | .pcpwm => 1

/-- The field code of PRESC (10_state.md R25). -/
def Presc.code : Presc → BitVec 1
  | .stopped => 0
  | .div1 => 1

/-- The field code of DIR (10_state.md R30). -/
def Dir.code : Dir → BitVec 1
  | .up => 0
  | .down => 1

/-- The field code of PH (10_state.md R34). -/
def Phase.code : Phase → BitVec 3
  | .idle => 0
  | .hdrM => 1
  | .hdrS => 2
  | .bitM => 3
  | .bitS => 4
  | .trlM => 5
  | .trlS => 6
  | .done => 7

/-- The response codes (60_exceptions.md R181). -/
def Response.code : Response → BitVec 4
  | .ok => 0
  | .eOpcode => 1
  | .eFreq => 2
  | .eProtocol => 3
  | .eBitcount => 4
  | .eDuration => 5

/-- `BUSY = (PH != IDLE)`, a derived signal (10_state.md R36). -/
def State.busy (s : State) : Bool := decide (s.ph ≠ .idle)

/-- The port `cmd_ready`: `PH = IDLE` (30_encoding.md R81). -/
def State.cmdReady (s : State) : Bool := decide (s.ph = .idle)

/-- `STATUS`: bit 5 CONN, bit 4 BUSY, bits 3:0 ERR (10_state.md R36). -/
def State.status (s : State) : BitVec 6 :=
  BitVec.ofBool s.conn ++ BitVec.ofBool s.busy ++ s.err

end Sys2Proof.Machine
end

