-- ==== Sys2Proof/Machine/Operands.lean ====
section
/-! DEFINITION. What the commands compute from their operands and the parameters. -/

namespace Sys2Proof.Machine

/-- `TOP_MAX = 2^CW - 1` (00_scope.md R9). -/
def topMax (p : Params) : Nat := 2 ^ (p.cw : Nat) - 1

/-- `top = ((F_SYS div 2) div frequency_khz) div 1000` (40_carrier_generator.md R110, R112), for
`frequency_khz > 0`. -/
def topCount (p : Params) (frequencyKhz : Int) : Nat :=
  (p.fSys : Nat) / 2 / frequencyKhz.toNat / 1000

/-- `D(d) = (d * F_SYS) div 1000000`, the ticks of a delay of `d` microseconds
(41_pulse_sequencer.md R132). -/
def delayTicks (p : Params) (d : Nat) : Nat := d * (p.fSys : Nat) / 1000000

/-- `shl32(v, n)`: bits shifted past bit 31 are lost, `shl32(v, 32) = 0` (00_scope.md R16). -/
def shl32 (v : Work) (n : Nat) : Work := v <<< n

/-- `after_hdr(c)`: a data bit's mark while bits remain, else the trailing mark
(42_protocol_encoder.md R158). -/
def afterHdr (c : BitVec 6) : Phase := if c = 0 then .trlM else .bitM

end Sys2Proof.Machine
end

