-- ==== Sys2Proof/Machine/Ops.lean ====
section
/-! DEFINITION. The shared operations: the sequencer's primitives, the end of a command and its
rejection (what IRTX has in the place of taking an exception), the counter, the carrier, the pin,
the tick, and reset. -/

namespace Sys2Proof.Machine

/-! ### Pulses (41_pulse_sequencer.md R130 to R135) -/

/-- `connect()` (R130). -/
def connect (s : State) : State := { s with conn := true }

/-- `disconnect()` (R131). -/
def disconnect (s : State) : State := { s with conn := false }

/-- `emit(p)`: append a pulse to TRACE (10_state.md R45). -/
def emit (p : Pulse) (s : State) : State := { s with trace := s.trace ++ [p] }

/-- `wait_us(d)` (R132). -/
def waitUs (d : Nat) (s : State) : State := { s with dly := delayTicks s.params d }

/-- Set the phase. -/
def setPhase (ph : Phase) (s : State) : State := { s with ph := ph }

/-- The pulse-level part of `mark(d)`: what it does but for the delay (R133; 00_scope.md R18, L1). -/
def markPulse (d : Nat) (s : State) : State := emit (.m d) (connect s)

/-- The pulse-level part of `space(d)` (R134). -/
def spacePulse (d : Nat) (s : State) : State := emit (.s d) (disconnect s)

/-- `mark(d)` (R133): connect, record, wait, in this order (R135). -/
def mark (d : Nat) (s : State) : State := waitUs d (markPulse d s)

/-- `space(d)` (R134): disconnect, record, wait, in this order (R135). -/
def space (d : Nat) (s : State) : State := waitUs d (spacePulse d s)

/-! ### The end of a command (60_exceptions.md R181 to R188, R201) -/

/-- `ERR <- r ; respond r`. -/
def respond (r : Response) (s : State) : State :=
  { s with err := r.code, responses := s.responses ++ [r] }

/-- `reject(code)`: the response, and nothing else (R187). -/
def reject (r : Response) (s : State) : State := respond r s

/-- The DONE step: `PH <- IDLE ; ERR <- OK ; respond OK` (41_pulse_sequencer.md R139). -/
def finish (s : State) : State := respond .ok (setPhase .idle s)

/-- A command is accepted only in `PH = IDLE` (30_encoding.md R82). -/
def whenReady (s : State) (accepted : State) : Result :=
  if s.ph = .idle then .next accepted else .refused .notReady

/-! ### The counter, the carrier and the pin -/

/-- The timer runs (40_carrier_generator.md R120). -/
abbrev TimerRuns (s : State) : Prop := s.tmode = .pcpwm ∧ s.presc = .div1 ∧ 1 ≤ s.top

/-- Where a running counter goes next (R120). Over the integers `CNT - 1 = 0` is `CNT = 1`. -/
def counterNext (s : State) : Nat × Dir :=
  match s.dir with
  | .up => if s.cnt + 1 = s.top then (s.top, .down) else (s.cnt + 1, .up)
  | .down => if s.cnt = 1 then (0, .up) else (s.cnt - 1, .down)

/-- Set the counter and its direction. -/
def setCounter (c : Nat × Dir) (s : State) : State := { s with cnt := c.1, dir := c.2 }

/-- `counter_tick` (R120). -/
def counterTick (s : State) : State := if TimerRuns s then setCounter (counterNext s) s else s

/-- The counter's phase `phi`, 0 to 2*TOP - 1 (R122). -/
def phase (s : State) : Nat :=
  match s.dir with
  | .up => s.cnt
  | .down => 2 * s.top - s.cnt

/-- The counter and direction at phase `phi` of a counter bounded by `top` (R122, read backwards). -/
def counterAt (top phi : Nat) : Nat × Dir :=
  if phi < top then (phi, .up) else (2 * top - phi, .down)

/-- `(CNT, DIR) <- any pair allowed by R43 (a) for the new TOP` (R110, R118): the next free value
picks one of the 2*TOP phases. Log entry 2. -/
def drawCounter (s : State) : State :=
  { setCounter (counterAt s.top (Config.freePhase s.draws % (2 * s.top))) s with
    draws := s.draws + 1 }

/-- The carrier level (R121). -/
def carrier (s : State) : Bool :=
  decide (TimerRuns s) &&
    match s.dir with
    | .up => decide (s.cnt < s.cmp)
    | .down => decide (s.cnt ≤ s.cmp)

/-- A driven pin's value. -/
def PinLevel.ofBool (b : Bool) : PinLevel := if b then .high else .low

/-- The pin function (41_pulse_sequencer.md R140). -/
def pin (s : State) : PinLevel :=
  match s.pinDir with
  | .input => .z
  | .output => .ofBool (if s.conn then carrier s else s.pinLvl)

/-- The port `ir_oe` (30_encoding.md R81). -/
def irOe (s : State) : BitVec 1 := s.pinDir.code

/-- The port `ir_out`, the 0/1 value of a driven pin (R140); none while the block does not drive
the pin. Log entry 13. -/
def irOut (s : State) : Option Bool :=
  match pin s with
  | .z => none
  | .low => some false
  | .high => some true

/-! ### Time -/

/-- The delay's part of a tick: `if DLY > 0 then DLY <- DLY - 1` (41_pulse_sequencer.md R138). -/
def countDown (s : State) : State := { s with dly := s.dly - 1 }

/-- The record a tick leaves: the pin before the tick's updates, and the time (R138, R46). -/
def recordTick (s : State) : State := { s with wave := s.wave ++ [pin s], now := s.now + 1 }

/-- `tick` (R138). -/
def tick (s : State) : State := countDown (counterTick (recordTick s))

/-! ### Inputs and reset -/

/-- The level of `rst` at this step. -/
def rstNow (s : State) : Bool := s.rstIn.headD false

/-- This step's level of `rst` is past. -/
def popRst (s : State) : State := { s with rstIn := s.rstIn.tail }

/-- The host's next move is made. -/
def popHost (s : State) : State := { s with host := s.host.tail }

/-- The host reads STATUS: no side effect on the block (10_state.md R36). -/
def readStatus (s : State) : State := { s with statusReads := s.statusReads ++ [s.status] }

/-- Reset, from any state (70_reset_and_hazards.md R210): every register at its reset value, NOW
at 0, no response. What already happened stays recorded, and the inputs still to come stay.
Log entry 4. -/
def takeReset (s : State) : State :=
  { State.reset with
    params := s.params, trace := s.trace, wave := s.wave, responses := s.responses,
    statusReads := s.statusReads, host := s.host, rstIn := s.rstIn, draws := s.draws }

end Sys2Proof.Machine
end

