-- ==== Sys2Proof/Machine/Carrier.lean ====
section
/-! DEFINITION. The Carrier Generator's command CFG (40_carrier_generator.md R110 to R118). -/

namespace Sys2Proof.Machine

/-- The checks of CFG (R111), for a top-count computed with `frequency_khz > 0`. -/
abbrev CfgRejected (p : Params) (frequencyKhz : Int) : Prop :=
  frequencyKhz ≤ 0 ∨ topCount p frequencyKhz < 1 ∨ topMax p < topCount p frequencyKhz

/-- The seven register writes of CFG, in the order of R110 and R114. -/
def configure (top : Nat) (s : State) : State :=
  { s with
    pinDir := .output, pinLvl := false, tmode := .pcpwm, presc := .div1,
    top := top, cmp := top / 3, conn := false }

/-- CFG on an idle block (R110). -/
def cfgStep (frequencyKhz : Int) (s : State) : State :=
  if CfgRejected s.params frequencyKhz then reject .eFreq s
  else respond .ok (drawCounter (configure (topCount s.params frequencyKhz) s))

/-- `CFG frequency_khz` (R110). -/
def execCfg (frequencyKhz : Int) (s : State) : Result := whenReady s (cfgStep frequencyKhz s)

end Sys2Proof.Machine
end

