-- ==== Sys2Proof/Machine/Encoder.lean ====
section
/-! DEFINITION. The Protocol Encoder: the JVC timing table, the command SEND and the phase machine
(42_protocol_encoder.md R150 to R158). -/

namespace Sys2Proof.Machine

/-- `HDR_MARK` (R150). -/
def hdrMarkUs : Nat := 8000

/-- `HDR_SPACE` (R150). -/
def hdrSpaceUs : Nat := 4000

/-- `BIT_MARK`, every data bit's mark and the trailing mark (R150). -/
def bitMarkUs : Nat := 600

/-- `ONE_SPACE` (R150). -/
def oneSpaceUs : Nat := 1600

/-- `ZERO_SPACE` (R150). -/
def zeroSpaceUs : Nat := 550

/-- The space that carries a data bit (R155). -/
def bitSpaceUs (b : Bool) : Nat := if b then oneSpaceUs else zeroSpaceUs

/-- The protocol identifier JVC (30_encoding.md R89). -/
def jvc : BitVec 4 := 1

/-- The loads of SHR and BCNT at the acceptance of SEND (R153, R158), for 0 ≤ bit_count ≤ 32. -/
def loadEncoder (value : Work) (bitCount : Nat) (s : State) : State :=
  { s with shr := shl32 value (32 - bitCount), bcnt := BitVec.ofNat 6 bitCount }

/-- The bit test (R156): `SHR[31]`. -/
def topBit (s : State) : Bool := s.shr.getLsbD 31

/-- `SHR <- shl32(SHR, 1) ; BCNT <- BCNT - 1` (R158, phase BIT_S). -/
def nextBit (s : State) : State := { s with shr := shl32 s.shr 1, bcnt := s.bcnt - 1 }

/-- The checks of SEND, in their order (R152, 60_exceptions.md R189): the code it is rejected
with, if it is. -/
def sendRejection (protocolId : BitVec 4) (bitCount : Int) : Option Response :=
  if protocolId ≠ jvc then some .eProtocol
  else if bitCount < 0 ∨ 32 < bitCount then some .eBitcount
  else none

/-- The first phase of a frame (R158): `is_repeat` skips the header (R154). -/
def firstPhase (isRepeat : Bool) (bcnt : BitVec 6) : Phase :=
  if isRepeat then afterHdr bcnt else .hdrM

/-- The acceptance of a SEND that passed its checks (R158). -/
def acceptSend (value : Work) (bitCount : Nat) (isRepeat : Bool) (s : State) : State :=
  setPhase (firstPhase isRepeat (BitVec.ofNat 6 bitCount)) (loadEncoder value bitCount s)

/-- SEND on an idle block (R151, R158). -/
def sendStep (protocolId : BitVec 4) (value : Work) (bitCount : Int) (isRepeat : Bool)
    (s : State) : State :=
  match sendRejection protocolId bitCount with
  | some r => reject r s
  | none => acceptSend value bitCount.toNat isRepeat s

/-- `SEND protocol_id, value, bit_count, is_repeat` (R151). -/
def execSend (protocolId : BitVec 4) (value : Work) (bitCount : Int) (isRepeat : Bool)
    (s : State) : Result :=
  whenReady s (sendStep protocolId value bitCount isRepeat s)

/-- The action of phase PH, in zero time (R158; DONE is 41_pulse_sequencer.md R139). In IDLE there
is none. -/
def controlStep (s : State) : State :=
  match s.ph with
  | .idle => s
  | .hdrM => setPhase .hdrS (mark hdrMarkUs s)
  | .hdrS => setPhase (afterHdr s.bcnt) (space hdrSpaceUs s)
  | .bitM => setPhase .bitS (mark bitMarkUs s)
  | .bitS => setPhase (afterHdr (s.bcnt - 1)) (nextBit (space (bitSpaceUs (topBit s)) s))
  | .trlM => setPhase .trlS (mark bitMarkUs s)
  | .trlS => setPhase .done (space 0 s)
  | .done => finish s

end Sys2Proof.Machine
end

