-- ==== Sys2Proof/Machine/Sequencer.lean ====
section
/-! DEFINITION. The host commands MARK and SPACE (41_pulse_sequencer.md R136, R137). -/

namespace Sys2Proof.Machine

/-- MARK on an idle block (R136). -/
def markStep (durationUs : Int) (s : State) : State :=
  if durationUs < 0 then reject .eDuration s else setPhase .done (mark durationUs.toNat s)

/-- SPACE on an idle block (R137). -/
def spaceStep (durationUs : Int) (s : State) : State :=
  if durationUs < 0 then reject .eDuration s else setPhase .done (space durationUs.toNat s)

/-- `MARK duration_us` (R136). -/
def execMark (durationUs : Int) (s : State) : Result := whenReady s (markStep durationUs s)

/-- `SPACE duration_us` (R137). -/
def execSpace (durationUs : Int) (s : State) : Result := whenReady s (spaceStep durationUs s)

end Sys2Proof.Machine
end

