-- ==== Sys2Proof/Machine/Dispatch.lean ====
section
/-! DEFINITION. One arm for each command: what accepting it does (41_pulse_sequencer.md R138). -/

namespace Sys2Proof.Machine

/-- The acceptance of a command. -/
def exec (i : Instr) (s : State) : Host.Outcome State Fault Refusal :=
  match i with
  | .cfg f => Sys2Proof.Machine.execCfg f s
  | .send p v n r => Sys2Proof.Machine.execSend p v n r s
  | .mark d => Sys2Proof.Machine.execMark d s
  | .space d => Sys2Proof.Machine.execSpace d s

end Sys2Proof.Machine
end

