-- ==== Sys2Proof/Machine/Run.lean ====
section
/-! DEFINITION. The step relation of 41_pulse_sequencer.md R138, with the host's choice and the
reset input taken from the state. -/

namespace Sys2Proof.Machine

/-- `accept(cmd)` (R138): decode, then reject an illegal word (30_encoding.md R90) or run the
command's rule. -/
def accept (w : CmdWord) (s : State) : Result :=
  match decode w with
  | none => whenReady s (reject .eOpcode s)
  | some i => exec i s

/-- Case (c), `PH = IDLE`: the host's next move; with no move left the host lets a tick pass. -/
def hostStep (s : State) : Result :=
  match s.host with
  | [] => .next (tick s)
  | .letTick :: _ => .next (tick (popHost s))
  | .readStatus :: _ => .next (readStatus (popHost s))
  | .present w :: _ => accept w (popHost s)

/-- Cases (a) and (b), `PH != IDLE`: a control step once the delay has run, else a tick. -/
def busyStep (s : State) : State := if s.dly = 0 then controlStep s else tick s

/-- One step of the block with `rst` low. -/
def blockStep (s : State) : Result :=
  if s.ph = .idle then hostStep s else .next (busyStep s)

/-- The state in which the host's next move is to present the word `w` to an idle block whose
reset input is low. -/
def presenting (w : CmdWord) (s : State) : State :=
  { s with ph := .idle, dly := 0, host := .present w :: s.host, rstIn := false :: s.rstIn }

end Sys2Proof.Machine
end

