-- ==== Sys2Proof/Machine/Step.lean ====
section
/-! DEFINITION. The step function, and the state in which a given command word comes next. -/

namespace Sys2Proof.Machine

/-- One step: reset when `rst` is high (70_reset_and_hazards.md R210), else the block's own step
(41_pulse_sequencer.md R138). -/
def step (s : State) : Host.Outcome State Fault Refusal :=
  if rstNow s then .next (takeReset (popRst s)) else blockStep (popRst s)

/-- `s` with the command word whose low `nbits` bits are `w` as the very next thing an idle block
is given. Log entry 5. -/
def State.withFetchWord (s : State) (nbits w : Nat) : State :=
  presenting (BitVec.ofNat 64 (w % 2 ^ nbits)) s

end Sys2Proof.Machine
end

