-- ==== Sys2Proof/Machine/PulseLevel.lean ====
section
/-! DEFINITION. The pulse level L1 (00_scope.md R18): each command as one big step that maps
registers to registers and appends pulses to TRACE, without time; and the frame as a function
(42_protocol_encoder.md R151, R159 to R167). The tick level, which `exec` and `step` follow,
refines it. Log entry 16. -/

namespace Sys2Proof.Machine

/-! ### The frame as a function -/

/-- `header(rep)` (R159). -/
def frameHeader (isRepeat : Bool) : List Pulse :=
  if isRepeat then [] else [.m hdrMarkUs, .s hdrSpaceUs]

/-- The mark and space of one data bit (R155). -/
def dataBit (b : Bool) : List Pulse := [.m bitMarkUs, .s (bitSpaceUs b)]

/-- `body(value, n)` (R159): bit n-1 first, bit 0 last. -/
def frameBody (value : Work) (n : Nat) : List Pulse :=
  (List.range n).flatMap fun i => dataBit (value.getLsbD (n - 1 - i))

/-- The trailing mark and the terminating zero-length space (R157). -/
def frameTrailer : List Pulse := [.m bitMarkUs, .s 0]

/-- `frame(value, n, rep)` (R159). -/
def frame (value : Work) (n : Nat) (isRepeat : Bool) : List Pulse :=
  frameHeader isRepeat ++ frameBody value n ++ frameTrailer

/-- One pulse read as a bit after the bits read so far: a space of 1600 is a 1, another space a 0
(R161 (a)). -/
def readPulse (acc : Nat) (p : Pulse) : Nat :=
  match p.kind with
  | .mark => acc
  | .space => 2 * acc + if p.us = oneSpaceUs then 1 else 0

/-- The code read back from the spaces of a body, first bit most significant (R161 (a)). -/
def readBody (ps : List Pulse) : Nat := ps.foldl readPulse 0

/-- The total requested length of some pulses, in microseconds. -/
def pulsesUs (ps : List Pulse) : Nat := (ps.map Pulse.us).sum

/-- The total length of some pulses in ticks, each delay rounded down by itself
(41_pulse_sequencer.md R132, 70_reset_and_hazards.md R230). -/
def pulsesTicks (p : Params) (ps : List Pulse) : Nat := (ps.map fun q => delayTicks p q.us).sum

/-- `T(value, n, rep)` (R167), in microseconds. -/
def frameDurationUs (value : Work) (n : Nat) (isRepeat : Bool) : Nat :=
  let ones := (List.range n).countP value.getLsbD
  (if isRepeat then 0 else 12000) + 600 * (n + 1) + 1600 * ones + 550 * (n - ones)

/-! ### The big step -/

/-- The header of a frame (R154). -/
def bigHeader (isRepeat : Bool) (s : State) : State :=
  if isRepeat then s else spacePulse hdrSpaceUs (markPulse hdrMarkUs s)

/-- The body of the loop of R151: one data bit. -/
def bigBit (s : State) : State :=
  nextBit (spacePulse (bitSpaceUs (topBit s)) (markPulse bitMarkUs s))

/-- The loop of R151, for the BCNT bits it runs. -/
def bigBits : Nat → State → State
  | 0, s => s
  | k + 1, s => bigBits k (bigBit s)

/-- SEND as one big step (R151). -/
def bigSend (protocolId : BitVec 4) (value : Work) (bitCount : Int) (isRepeat : Bool)
    (s : State) : State :=
  match sendRejection protocolId bitCount with
  | some r => reject r s
  | none =>
    let loaded := bigHeader isRepeat (loadEncoder value bitCount.toNat s)
    respond .ok (spacePulse 0 (markPulse bitMarkUs (bigBits loaded.bcnt.toNat loaded)))

/-- Each command as one big step (L1). CNT and DIR belong to L2 (10_state.md R29, R30). -/
def bigStep (i : Instr) (s : State) : State :=
  match i with
  | .cfg f =>
    if CfgRejected s.params f then reject .eFreq s
    else respond .ok (configure (topCount s.params f) s)
  | .send p v n r => bigSend p v n r s
  | .mark d => if d < 0 then reject .eDuration s else respond .ok (markPulse d.toNat s)
  | .space d => if d < 0 then reject .eDuration s else respond .ok (spacePulse d.toNat s)

/-- What L1 sees of a state: no counter, no delay, no time, and not the inputs still to come. -/
def pulseView (s : State) : State :=
  { s with cnt := 0, dir := .up, dly := 0, wave := [], now := 0, host := [], rstIn := [], draws := 0 }

end Sys2Proof.Machine
end

