-- ==== Sys2Proof/Safety.lean ====
section
/-! DEFINITION. The predicates claims are stated in: the invariants of 10_state.md R43, the caller's
contract R44, and the parts of a state that some steps leave alone. -/

namespace Sys2Proof.Machine

/-- The counter lies where R43 (a) says. -/
abbrev CounterLegal (s : State) : Prop :=
  match s.dir with
  | .up => s.cnt < s.top ∨ (s.top = 0 ∧ s.cnt = 0)
  | .down => 1 ≤ s.cnt ∧ s.cnt ≤ s.top

/-- `1 <= TOP <= TOP_MAX` and `CMP = TOP div 3` (R43 (e)). -/
abbrev PeriodLegal (s : State) : Prop :=
  1 ≤ s.top ∧ s.top ≤ topMax s.params ∧ s.cmp = s.top / 3

/-- `carrier_configured` (R44). -/
abbrev CarrierConfigured (s : State) : Prop :=
  s.pinDir = .output ∧ s.pinLvl = false ∧ s.tmode = .pcpwm ∧ s.presc = .div1 ∧ PeriodLegal s

/-- The invariants of R43, and that ERR holds a code R181 produces. -/
structure Inv (s : State) : Prop where
  /-- (a) -/
  counter : CounterLegal s
  /-- (b) -/
  bcnt : s.bcnt ≤ 32
  /-- (c) -/
  idle : s.ph = .idle → s.dly = 0
  /-- (d) -/
  pinLvl : s.pinLvl = false
  /-- (e), first equivalence -/
  tmode : s.tmode = .pcpwm ↔ s.presc = .div1
  /-- (e), second equivalence -/
  presc : s.presc = .div1 ↔ s.pinDir = .output
  /-- (e), the values a CFG leaves -/
  period : s.tmode = .pcpwm → PeriodLegal s
  /-- (f) -/
  bits : s.ph = .bitM ∨ s.ph = .bitS → 1 ≤ s.bcnt
  /-- R181: codes 6 to 15 are never produced. -/
  err : s.err ≤ 5

/-- Two states hold the same configuration registers and parameters. -/
abbrev SameConfig (s t : State) : Prop :=
  t.params = s.params ∧ t.pinDir = s.pinDir ∧ t.pinLvl = s.pinLvl ∧ t.tmode = s.tmode ∧
    t.presc = s.presc ∧ t.top = s.top ∧ t.cmp = s.cmp

/-- The state without its observations (R45, R46; 30_encoding.md R81). -/
def hardwareView (s : State) : State :=
  { s with trace := [], wave := [], now := 0, responses := [], statusReads := [] }

/-- The outcome of a step, as far as a view of the state shows it. -/
def mapResult (f : State → State) : Result → Result
  | .next t => .next (f t)
  | .fault r => .fault r
  | .refused r => .refused r

/-- `k` steps answer the state `t`. -/
abbrev RunsTo (k : Nat) (s t : State) : Prop := Host.Core.run Sys2Proof.core k s = .next t

/-- A command of the host is accepted at `s`: no reset, the block idle, the word `w` presented. -/
abbrev Accepts (s : State) (w : CmdWord) : Prop :=
  rstNow s = false ∧ s.ph = .idle ∧ s.host.head? = some (.present w)

/-- The state `exec` sees when a command is accepted: this step's inputs are past. -/
def sampled (s : State) : State := popHost (popRst s)

/-- The pin's values over `n` ticks of a connected, configured carrier that starts at phase `phi`
(41_pulse_sequencer.md R141, 40_carrier_generator.md R122). -/
def carrierWave (top cmp phi n : Nat) : List PinLevel :=
  (List.range n).map fun t =>
    let p := (phi + t) % (2 * top)
    PinLevel.ofBool (decide (p < cmp ∨ 2 * top - cmp ≤ p))

end Sys2Proof.Machine
end

