-- ==== Sys2Proof/Certificates/Slice0/Obligations.lean ====
section
/-! DEFINITION. The statements for the provers, from the numbered rules of the spec. -/

open Sys2Proof Sys2Proof.Machine

/-! ### Encoding -/

/-- The encoder is the inverse of the decoder on the commands a word can carry, and gives the words
30_encoding.md section 7 writes out. -/
def Obligations.EncodeDecodeInverse : Prop :=
  (∀ i : Instr, i.wellFormed = true → decode (encode i) = some i) ∧
  (∀ (w : CmdWord) (i : Instr), decode w = some i → encode i = w) ∧
  (∀ f : Int, encode (.cfg f) = BitVec.ofNat 64 (0x1 <<< 60 ||| (f % 2 ^ 32).toNat)) ∧
  (∀ (p : BitVec 4) (v : Work) (n : Int) (r : Bool),
    encode (.send p v n r) = BitVec.ofNat 64
      (0x2 <<< 60 ||| p.toNat <<< 56 ||| r.toNat <<< 48 ||| (n % 2 ^ 8).toNat <<< 40 ||| v.toNat)) ∧
  (∀ d : Int, encode (.mark d) = BitVec.ofNat 64 (0x3 <<< 60 ||| (d % 2 ^ 32).toNat)) ∧
  (∀ d : Int, encode (.space d) = BitVec.ofNat 64 (0x4 <<< 60 ||| (d % 2 ^ 32).toNat))

/-- 30_encoding.md R88: a row of the opcode map matches a word exactly when the decoder reads that
row's command, the rows are disjoint, and a word that matches no row is illegal. -/
def Obligations.OpcodeMapIsExact : Prop :=
  opcodeMap = [⟨.CFG, 0x1000000000000000, 0xFFFFFFFF00000000⟩,
    ⟨.SEND, 0x2000000000000000,
      0xF000000000000000 ||| 0x00FE000000000000 ||| 0x000000FF00000000⟩,
    ⟨.MARK, 0x3000000000000000, 0xFFFFFFFF00000000⟩,
    ⟨.SPACE, 0x4000000000000000, 0xFFFFFFFF00000000⟩] ∧
  ∀ w : CmdWord,
    (∀ r ∈ opcodeMap, r.Matches w ↔ (decode w).map Instr.mnemonic = some r.mnemonic) ∧
    (∀ r ∈ opcodeMap, ∀ q ∈ opcodeMap, r.Matches w → q.Matches w → r = q) ∧
    (decode w = none ↔ ∀ r ∈ opcodeMap, ¬ r.Matches w)

/-- 30_encoding.md R87: each operand is one contiguous field, sign- or zero-extended, with the
range the rule gives. -/
def Obligations.OperandsAreExtendedFields : Prop :=
  ∀ (w : CmdWord) (i : Instr), decode w = some i →
    match i with
    | .cfg f => f = (w.extractLsb' 0 32).toInt ∧ -2 ^ 31 ≤ f ∧ f ≤ 2 ^ 31 - 1
    | .send p v n r =>
      p = w.extractLsb' 56 4 ∧ p.toNat ≤ 15 ∧ (r = true ↔ w.extractLsb' 48 1 = 1#1) ∧
        n = (w.extractLsb' 40 8).toInt ∧ -128 ≤ n ∧ n ≤ 127 ∧
        v.toNat = (w.extractLsb' 0 32).toNat ∧ v.toNat ≤ 2 ^ 32 - 1
    | .mark d => d = (w.extractLsb' 0 32).toInt ∧ -2 ^ 31 ≤ d ∧ d ≤ 2 ^ 31 - 1
    | .space d => d = (w.extractLsb' 0 32).toInt ∧ -2 ^ 31 ≤ d ∧ d ≤ 2 ^ 31 - 1

/-- 30_encoding.md R90: which words are illegal, and what presenting one to an idle block does. -/
def Obligations.IllegalWordIsRejected : Prop :=
  (∀ w : CmdWord, decode w = none ↔
    (w.extractLsb' 60 4 = 0x0#4 ∨ 0x5#4 ≤ w.extractLsb' 60 4) ∨
    ((w.extractLsb' 60 4 = 0x1#4 ∨ w.extractLsb' 60 4 = 0x3#4 ∨ w.extractLsb' 60 4 = 0x4#4) ∧
      w.extractLsb' 32 28 ≠ 0#28) ∨
    (w.extractLsb' 60 4 = 0x2#4 ∧ (w.extractLsb' 49 7 ≠ 0#7 ∨ w.extractLsb' 32 8 ≠ 0#8))) ∧
  ∀ (s : State) (w : CmdWord), Accepts s w → decode w = none →
    step s = .next { s with
      err := 1, responses := s.responses ++ [.eOpcode]
      host := s.host.tail, rstIn := s.rstIn.tail }

/-- Words written out from the formats of 30_encoding.md R84 to R86 (V1, V2, V4, V8, V9, V10, V11
of 95_test_vectors.md). -/
def Obligations.DecodesWordsOfEachFormat : Prop :=
  decode 0x1000000000000026 = some (.cfg 38) ∧
  decode 0x10000000FFFFFFDA = some (.cfg (-38)) ∧
  decode 0x2101100000000001 = some (.send 1 1 16 true) ∧
  decode 0x2100FF0000000000 = some (.send 1 0 (-1) false) ∧
  decode 0x2000100000000001 = some (.send 0 1 16 false) ∧
  decode 0x3000000000000258 = some (.mark 600) ∧
  decode 0x4000000080000000 = some (.space (-2147483648)) ∧
  decode 0x2102100000000001 = none

/-! ### The step -/

/-- When the host presents a word that decodes to `i` to an idle block, the step is `exec i`, with
this step's inputs past and nothing else around it (41_pulse_sequencer.md section 4, case (c)). -/
def Obligations.StepRunsPresentedCommand : Prop :=
  ∀ (s : State) (w : CmdWord) (i : Instr), Accepts s w → decode w = some i →
    step s = exec i { s with host := s.host.tail, rstIn := s.rstIn.tail } ∧ i.wellFormed = true

/-- The cases of 41_pulse_sequencer.md section 4 in which no command is accepted: (a) a control
step, (b) and (c) a tick; with the tick written out. The counter's part is `counterTick`. -/
def Obligations.StepOutsideAcceptance : Prop :=
  ∀ s : State, rstNow s = false →
    (s.ph ≠ .idle → s.dly = 0 → step s = .next (controlStep (popRst s))) ∧
    ((s.ph ≠ .idle ∧ 0 < s.dly) ∨ (s.ph = .idle ∧ (s.host = [] ∨ s.host.head? = some .letTick)) →
      step s = .next { s with
        wave := s.wave ++ [pin s], now := s.now + 1
        cnt := (counterTick s).cnt, dir := (counterTick s).dir
        dly := if 0 < s.dly then s.dly - 1 else s.dly
        host := if s.ph = .idle then s.host.tail else s.host
        rstIn := s.rstIn.tail })

/-- Nothing in IRTX is ever stuck: from every state there is a next state, whatever the inputs. -/
def Obligations.StepAlwaysHasNextState : Prop :=
  ∀ s : State, ∃ t : State, step s = .next t

/-- A command is accepted only in `PH = IDLE`; asked for one elsewhere, `exec` has no move
(30_encoding.md section 1; the refusal's name is the model's, log entry 7). -/
def Obligations.ExecNeedsIdle : Prop :=
  ∀ (i : Instr) (s : State),
    (exec i s = .refused .notReady ↔ s.ph ≠ .idle) ∧ (s.ph = .idle → ∃ t, exec i s = .next t)

/-! ### The four commands -/

/-- 40_carrier_generator.md R110: CFG's words, and CFG on an idle block. The drawn pair, and the
model's count of draws, stand under the existential. -/
def Obligations.CfgCommand : Prop :=
  (∀ (f : Int) (w : CmdWord), decode w = some (.cfg f) ↔
    w.extractLsb' 60 4 = 0x1#4 ∧ w.extractLsb' 32 28 = 0#28 ∧ (w.extractLsb' 0 32).toInt = f) ∧
  (∀ (f : Int) (s t : State), exec (.cfg f) s = .next t → s.ph = .idle) ∧
  ∀ (f : Int) (s : State), s.ph = .idle →
    let top := (s.params.fSys : Nat) / 2 / f.toNat / 1000
    (f ≤ 0 ∨ top < 1 ∨ 2 ^ (s.params.cw : Nat) - 1 < top →
      exec (.cfg f) s = .next { s with err := 2, responses := s.responses ++ [.eFreq] }) ∧
    (0 < f → 1 ≤ top → top ≤ 2 ^ (s.params.cw : Nat) - 1 →
      ∃ (c : Nat) (d : Dir) (k : Nat),
        (match d with
          | .up => c < top
          | .down => 1 ≤ c ∧ c ≤ top) ∧
        exec (.cfg f) s = .next { s with
          pinDir := .output, pinLvl := false, tmode := .pcpwm, presc := .div1
          top := top, cmp := top / 3, conn := false, cnt := c, dir := d
          err := 0, responses := s.responses ++ [.ok], draws := k }) ∧
    (s.params = ⟨8000000, 8⟩ → f = 38 →
      ∃ t, exec (.cfg f) s = .next t ∧ t.top = 105 ∧ t.cmp = 35 ∧ t.err = 0)

/-- 40_carrier_generator.md R111: the three checks of CFG, and when the top-count is 0. -/
def Obligations.CfgChecks : Prop :=
  ∀ (f : Int) (s : State), s.ph = .idle →
    (f ≤ 0 ∨ (s.params.fSys : Int) < 2000 * f ∨ topMax s.params < topCount s.params f ↔
      exec (.cfg f) s = .next { s with err := 2, responses := s.responses ++ [.eFreq] }) ∧
    (0 < f → (topCount s.params f = 0 ↔ (s.params.fSys : Int) < 2000 * f))

/-- Two accepted `CFG f` in a row leave every configuration register and CONN as the first did
(40_carrier_generator.md section 1; the spec marks this a derivation). -/
def Obligations.CfgIsIdempotent : Prop :=
  ∀ (f : Int) (s t : State), exec (.cfg f) s = .next t →
    ∃ u, exec (.cfg f) t = .next u ∧ SameConfig t u ∧ u.conn = t.conn ∧ u.err = t.err ∧
      (t.err = 0 → t.conn = false ∧ CarrierConfigured t)

/-- 41_pulse_sequencer.md R136: MARK's words, and MARK from acceptance to its response. -/
def Obligations.MarkCommand : Prop :=
  (∀ (d : Int) (w : CmdWord), decode w = some (.mark d) ↔
    w.extractLsb' 60 4 = 0x3#4 ∧ w.extractLsb' 32 28 = 0#28 ∧ (w.extractLsb' 0 32).toInt = d) ∧
  (∀ (d : Int) (s t : State), exec (.mark d) s = .next t → s.ph = .idle) ∧
  ∀ (d : Int) (s : State), s.ph = .idle →
    (d < 0 → exec (.mark d) s = .next { s with err := 5, responses := s.responses ++ [.eDuration] }) ∧
    (0 ≤ d →
      let ticks := d.toNat * (s.params.fSys : Nat) / 1000000
      let t := { s with
        conn := true, trace := s.trace ++ [⟨.mark, d.toNat⟩], dly := ticks, ph := .done }
      exec (.mark d) s = .next t ∧
      (s.rstIn = [] → ∃ u, RunsTo (ticks + 1) t u ∧ u.ph = .idle ∧ u.err = 0 ∧
        u.responses = s.responses ++ [.ok] ∧ u.conn = true ∧ u.trace = t.trace ∧
        (∀ k ≤ ticks, ∃ x, RunsTo k t x ∧ x.conn = true ∧ x.ph = .done ∧ x.now = s.now + k) ∧
        u.now = s.now + ticks ∧ (s.pinDir = .input → u.wave = s.wave ++ List.replicate ticks .z)))

/-- 41_pulse_sequencer.md R137: SPACE's words, and SPACE from acceptance to its response. -/
def Obligations.SpaceCommand : Prop :=
  (∀ (d : Int) (w : CmdWord), decode w = some (.space d) ↔
    w.extractLsb' 60 4 = 0x4#4 ∧ w.extractLsb' 32 28 = 0#28 ∧ (w.extractLsb' 0 32).toInt = d) ∧
  (∀ (d : Int) (s t : State), exec (.space d) s = .next t → s.ph = .idle) ∧
  ∀ (d : Int) (s : State), s.ph = .idle →
    (d < 0 → exec (.space d) s = .next { s with err := 5, responses := s.responses ++ [.eDuration] }) ∧
    (0 ≤ d →
      let ticks := d.toNat * (s.params.fSys : Nat) / 1000000
      let t := { s with
        conn := false, trace := s.trace ++ [⟨.space, d.toNat⟩], dly := ticks, ph := .done }
      exec (.space d) s = .next t ∧
      (s.rstIn = [] → ∃ u, RunsTo (ticks + 1) t u ∧ u.ph = .idle ∧ u.err = 0 ∧
        u.responses = s.responses ++ [.ok] ∧ u.conn = false ∧ u.trace = t.trace ∧
        (∀ k ≤ ticks, ∃ x, RunsTo k t x ∧ x.conn = false ∧ x.ph = .done ∧ x.now = s.now + k) ∧
        u.now = s.now + ticks))

/-- The acceptance of SEND (42_protocol_encoder.md section 3, first part). -/
def Obligations.SendAccepted : Prop :=
  ∀ (v : Work) (n : Nat) (rep : Bool) (s : State), s.ph = .idle → n ≤ 32 →
    exec (.send 1 v n rep) s = .next { s with
      shr := v <<< (32 - n), bcnt := BitVec.ofNat 6 n
      ph := if rep then (if 0 < n then .bitM else .trlM) else .hdrM }

/-- 42_protocol_encoder.md R153: the left-justified value; with no bit to send, the frame goes on
with no data bit. -/
def Obligations.SendLeftJustifies : Prop :=
  ∀ (v : Work) (n : Nat) (rep : Bool) (s : State), s.ph = .idle → n ≤ 32 →
    ∃ t, exec (.send 1 v n rep) s = .next t ∧
      t.shr.toNat = v.toNat * 2 ^ (32 - n) % 2 ^ 32 ∧
      (∀ k < n, t.shr.getLsbD (31 - k) = v.getLsbD (n - 1 - k)) ∧
      (∀ k < 32 - n, t.shr.getLsbD k = false) ∧
      (n = 32 → t.shr = v) ∧
      (n = 0 → t.shr = 0 ∧ t.bcnt = 0 ∧ t.ph = if rep then .trlM else .hdrM)

/-- 42_protocol_encoder.md R152: SEND's checks, in their order, each before any register is
touched; no check on `value` or `is_repeat`. -/
def Obligations.SendChecksInOrder : Prop :=
  ∀ (p : BitVec 4) (v : Work) (n : Int) (rep : Bool) (s : State), s.ph = .idle →
    (p ≠ 1 → exec (.send p v n rep) s =
      .next { s with err := 3, responses := s.responses ++ [.eProtocol] }) ∧
    (p = 1 → (32 < n ∨ n < 0) → exec (.send p v n rep) s =
      .next { s with err := 4, responses := s.responses ++ [.eBitcount] }) ∧
    (p = 1 → 0 ≤ n → n ≤ 32 →
      ∃ t, exec (.send p v n rep) s = .next t ∧ t.responses = s.responses ∧ t.ph ≠ .idle)

/-- 60_exceptions.md R187: a command that ends in a rejection writes ERR, gives its response, and
does nothing else: the pin stays, the counter goes on from where it was. -/
def Obligations.RejectionWritesErrOnly : Prop :=
  (∀ (i : Instr) (s t : State) (r : Response), exec i s = .next t →
    t.responses = s.responses ++ [r] → r ≠ .ok →
    t = { s with err := r.code, responses := s.responses ++ [r] } ∧
      pin t = pin s ∧ (counterTick t).cnt = (counterTick s).cnt ∧
      (counterTick t).dir = (counterTick s).dir) ∧
  (∀ (w : CmdWord) (s t : State) (r : Response), Accepts s w → step s = .next t →
    t.responses = s.responses ++ [r] → r ≠ .ok →
    t = { s with
      err := r.code, responses := s.responses ++ [r]
      host := s.host.tail, rstIn := s.rstIn.tail })

/-- 60_exceptions.md R186: E_DURATION is raised by MARK and SPACE on a negative duration, and by
nothing else; a running command gives no response but OK. -/
def Obligations.NegativeDurationRejected : Prop :=
  (∀ (d : Int) (s : State), s.ph = .idle → d < 0 →
    exec (.mark d) s = .next { s with err := 5, responses := s.responses ++ [.eDuration] } ∧
    exec (.space d) s = .next { s with err := 5, responses := s.responses ++ [.eDuration] }) ∧
  (∀ (i : Instr) (s t : State), exec i s = .next t →
    t.responses = s.responses ++ [.eDuration] → ∃ d < 0, i = .mark d ∨ i = .space d) ∧
  (∀ s t : State, s.ph ≠ .idle → step s = .next t →
    t.responses = s.responses ∨ t.responses = s.responses ++ [.ok])

/-- The frame of CFG: everything but the registers 10_state.md section 8 lists for it. -/
def Obligations.CfgFrame : Prop :=
  ∀ (f : Int) (s t : State), exec (.cfg f) s = .next t →
    t.params = s.params ∧ t.dly = s.dly ∧ t.shr = s.shr ∧ t.bcnt = s.bcnt ∧ t.ph = s.ph ∧
      t.trace = s.trace ∧ t.wave = s.wave ∧ t.now = s.now ∧ t.statusReads = s.statusReads ∧
      t.host = s.host ∧ t.rstIn = s.rstIn

/-- The frame of the acceptance of SEND, MARK and SPACE: no Carrier Generator register but CONN, no
time, no input; SEND loads the encoder and touches no pulse state; MARK and SPACE do the reverse. -/
def Obligations.PulseCommandFrame : Prop :=
  ∀ (i : Instr) (s t : State), (∀ f, i ≠ .cfg f) → exec i s = .next t →
    SameConfig s t ∧ t.cnt = s.cnt ∧ t.dir = s.dir ∧ t.wave = s.wave ∧ t.now = s.now ∧
      t.statusReads = s.statusReads ∧ t.host = s.host ∧ t.rstIn = s.rstIn ∧ t.draws = s.draws ∧
      (match i with
        | .cfg _ => True
        | .send _ _ _ _ => t.conn = s.conn ∧ t.dly = s.dly ∧ t.trace = s.trace
        | .mark _ => t.shr = s.shr ∧ t.bcnt = s.bcnt
        | .space _ => t.shr = s.shr ∧ t.bcnt = s.bcnt)

/-! ### The phase machine and the frame -/

/-- The control steps of 42_protocol_encoder.md section 3, each as the step of the machine, with
the frame of each: what is not named is unchanged. -/
def Obligations.ControlStepsOfPhaseMachine : Prop :=
  ∀ s : State, rstNow s = false → s.dly = 0 →
    let us (d : Nat) := d * (s.params.fSys : Nat) / 1000000
    let m (d : Nat) (ph : Phase) : State := { s with
      conn := true, trace := s.trace ++ [⟨.mark, d⟩], dly := us d, ph := ph, rstIn := s.rstIn.tail }
    let sp (d : Nat) (ph : Phase) : State := { s with
      conn := false, trace := s.trace ++ [⟨.space, d⟩], dly := us d, ph := ph
      rstIn := s.rstIn.tail }
    let after (c : BitVec 6) : Phase := if 0 < c then .bitM else .trlM
    (s.ph = .hdrM → step s = .next (m 8000 .hdrS)) ∧
    (s.ph = .hdrS → step s = .next (sp 4000 (after s.bcnt))) ∧
    (s.ph = .bitM → step s = .next (m 600 .bitS)) ∧
    (s.ph = .bitS → step s = .next
      { sp (if s.shr.getLsbD 31 then 1600 else 550) (after (s.bcnt - 1)) with
        shr := s.shr <<< 1, bcnt := s.bcnt - 1 }) ∧
    (s.ph = .trlM → step s = .next (m 600 .trlS)) ∧
    (s.ph = .trlS → step s = .next (sp 0 .done))

/-- 41_pulse_sequencer.md R139: the DONE step takes no time and gives the response OK. -/
def Obligations.DoneStepResponds : Prop :=
  ∀ s : State, rstNow s = false → s.ph = .done → s.dly = 0 →
    step s = .next { s with
      ph := .idle, err := 0, responses := s.responses ++ [.ok], rstIn := s.rstIn.tail }

/-- The bit order (42_protocol_encoder.md section 4; the spec marks it a derivation): where the bits
of `value` stand after the left-justify and after i shifts. -/
def Obligations.BitsLeaveMostSignificantFirst : Prop :=
  ∀ (v : Work) (n : Nat) (s : State), n ≤ 32 →
    (∀ k < n, (loadEncoder v n s).shr.getLsbD (31 - k) = v.getLsbD (n - 1 - k)) ∧
    (∀ i < n, topBit (nextBit^[i] (loadEncoder v n s)) = v.getLsbD (n - 1 - i)) ∧
    (nextBit^[n] (loadEncoder v n s)).shr = 0 ∧ (nextBit^[n] (loadEncoder v n s)).bcnt = 0

/-- SEND at the pulse level appends exactly the frame and leaves the registers as
42_protocol_encoder.md section 4 says (the spec marks it a derivation). -/
def Obligations.SendAppendsItsFrame : Prop :=
  ∀ (v : Work) (n : Nat) (rep : Bool) (s : State), n ≤ 32 →
    bigStep (.send 1 v n rep) s =
      { s with
        shr := 0, bcnt := 0, conn := false, err := 0, trace := s.trace ++ frame v n rep
        responses := s.responses ++ [.ok] } ∧
    (frame v n rep).length = if rep then 2 * (n + 1) else 2 * (n + 2)

/-- The document's testable properties of a frame (42_protocol_encoder.md section 4; the spec marks
them a derivation): header, body, trailer, and the value read back from the body's spaces. -/
def Obligations.FrameShapeAndReadback : Prop :=
  ∀ (v : Work) (n : Nat) (rep : Bool), n ≤ 32 →
    ∃ body : List Pulse,
      frame v n rep = (if rep then [] else [⟨.mark, 8000⟩, ⟨.space, 4000⟩]) ++ body ++
        [⟨.mark, 600⟩, ⟨.space, 0⟩] ∧
      body.length = 2 * n ∧
      (∀ i < n, body[2 * i]? = some ⟨.mark, 600⟩ ∧
        body[2 * i + 1]? = some ⟨.space, if v.getLsbD (n - 1 - i) then 1600 else 550⟩) ∧
      readBody body = v.toNat % 2 ^ n ∧
      (frame v n rep).count ⟨.mark, 8000⟩ = (if rep then 0 else 1) ∧
      (frame v n rep).count ⟨.space, 4000⟩ = (if rep then 0 else 1) ∧
      (frame v n rep).count ⟨.space, 0⟩ = 1

/-- 42_protocol_encoder.md R163: bits of `value` at positions `bit_count` and above are ignored. -/
def Obligations.FrameIgnoresHighBits : Prop :=
  (∀ (v : Work) (n : Nat) (rep : Bool), n ≤ 32 →
    frame v n rep = frame (BitVec.ofNat 32 (v.toNat % 2 ^ n)) n rep) ∧
  ∀ s : State, (bigStep (.send 1 0xFFFF0001 16 false) s).trace =
    (bigStep (.send 1 0x0001 16 false) s).trace

/-- The tick level refines the pulse level (00_scope.md section 5, L1 and L2): every command
accepted by an idle block reaches IDLE again, busy until then, with the registers, the pulses and
the responses of its big step, in exactly the ticks of its pulses. -/
def Obligations.TickLevelRefinesPulseLevel : Prop :=
  ∀ (i : Instr) (s : State), s.ph = .idle → s.dly = 0 → s.rstIn = [] →
    ∃ (t u : State) (k : Nat) (ps : List Pulse), exec i s = .next t ∧ RunsTo k t u ∧
      u.ph = .idle ∧ u.dly = 0 ∧ u.host = s.host ∧
      pulseView u = pulseView (bigStep i s) ∧
      u.trace = s.trace ++ ps ∧ u.now = s.now + pulsesTicks s.params ps ∧
      ∀ j < k, ∃ x, RunsTo j t x ∧ x.ph ≠ .idle

/-- The frame's duration (42_protocol_encoder.md section 4; the spec marks it a derivation): the
total of its pulses, its bounds for 16 bits, and the ticks from acceptance to response when F_SYS is
a whole number of megahertz. -/
def Obligations.FrameDuration : Prop :=
  ∀ (v : Work) (n : Nat) (rep : Bool), n ≤ 32 →
    let ones := (List.range n).countP (BitVec.ofNat 32 (v.toNat % 2 ^ n)).getLsbD
    let T := (if rep then 0 else 12000) + 600 * (n + 1) + 1600 * ones + 550 * (n - ones)
    pulsesUs (frame v n rep) = T ∧
    (n = 16 → rep = false → 31000 ≤ T ∧ T ≤ 47800) ∧
    ∀ (s : State) (mhz : Nat), s.ph = .idle → s.dly = 0 → s.rstIn = [] →
      (s.params.fSys : Nat) = mhz * 1000000 →
      ∃ (t u : State) (k : Nat), exec (.send 1 v n rep) s = .next t ∧ RunsTo k t u ∧
        u.ph = .idle ∧ u.responses = s.responses ++ [.ok] ∧
        u.now = s.now + T * (s.params.fSys : Nat) / 1000000 ∧
        ∀ j < k, ∃ x, RunsTo j t x ∧ x.ph ≠ .idle

/-- Every running command ends (41_pulse_sequencer.md section 4): from any busy state, with no
reset, the block reaches IDLE after finitely many steps, with the response OK. -/
def Obligations.BusyBlockReachesIdle : Prop :=
  ∀ s : State, s.ph ≠ .idle → s.rstIn = [] →
    ∃ (k : Nat) (u : State), RunsTo k s u ∧ u.ph = .idle ∧ u.dly = 0 ∧ u.err = 0 ∧
      u.responses = s.responses ++ [.ok] ∧ u.host = s.host

/-! ### The carrier and the pin -/

/-- 40_carrier_generator.md R120: the counter rule, and the period of a running counter. -/
def Obligations.CounterRule : Prop :=
  ∀ s : State,
    (¬ (s.tmode = .pcpwm ∧ s.presc = .div1 ∧ 1 ≤ s.top) → counterTick s = s) ∧
    (s.tmode = .pcpwm → s.presc = .div1 → 1 ≤ s.top → CounterLegal s →
      (s.dir = .up → s.cnt + 1 = s.top → counterTick s = { s with cnt := s.top, dir := .down }) ∧
      (s.dir = .up → s.cnt + 1 ≠ s.top → counterTick s = { s with cnt := s.cnt + 1 }) ∧
      (s.dir = .down → s.cnt - 1 = 0 → counterTick s = { s with cnt := 0, dir := .up }) ∧
      (s.dir = .down → s.cnt - 1 ≠ 0 → counterTick s = { s with cnt := s.cnt - 1 }) ∧
      counterTick^[2 * s.top] s = s ∧
      ∀ c, counterTick { s with conn := c } = { counterTick s with conn := c })

/-- 40_carrier_generator.md R121: the carrier level. -/
def Obligations.CarrierLevel : Prop :=
  ∀ s : State,
    (carrier s = true ↔ (s.tmode = .pcpwm ∧ s.presc = .div1 ∧ 1 ≤ s.top) ∧
      ((s.dir = .up ∧ s.cnt < s.cmp) ∨ (s.dir = .down ∧ s.cnt ≤ s.cmp))) ∧
    (s.tmode ≠ .pcpwm ∨ s.presc ≠ .div1 ∨ s.top = 0 → carrier s = false) ∧
    (s.cmp = 0 → CounterLegal s → carrier s = false) ∧
    (TimerRuns s → CounterLegal s → s.cmp < s.top →
      ((List.range (2 * s.top)).countP fun k => carrier (counterTick^[k] s)) = 2 * s.cmp)

/-- The counter's phase advances by one each tick, modulo 2*TOP, and decides the carrier
(40_carrier_generator.md section 3; the spec marks it a derivation). -/
def Obligations.PhaseAdvancesAndDecidesCarrier : Prop :=
  ∀ s : State, TimerRuns s → CounterLegal s → s.cmp < s.top →
    phase s < 2 * s.top ∧ CounterLegal (counterTick s) ∧
      phase (counterTick s) = (phase s + 1) % (2 * s.top) ∧
      (carrier s = true ↔ phase s < s.cmp ∨ 2 * s.top - s.cmp ≤ phase s)

/-- 41_pulse_sequencer.md R140: the pin function; the pin of a disconnected output is low in every
state the invariant allows. -/
def Obligations.PinFunction : Prop :=
  ∀ s : State,
    (s.pinDir = .input → pin s = .z ∧ irOe s = 0) ∧
    (s.pinDir = .output → s.conn = true →
      pin s = (if carrier s then .high else .low) ∧ irOe s = 1 ∧ irOut s = some (carrier s)) ∧
    (s.pinDir = .output → s.conn = false →
      pin s = (if s.pinLvl then .high else .low) ∧ irOe s = 1 ∧ irOut s = some s.pinLvl ∧
        (Inv s → pin s = .low))

/-- The waveform of a host's MARK and SPACE (41_pulse_sequencer.md section 5; the spec marks it a
derivation): for the D(d) ticks of a MARK the pin follows the carrier from the phase the counter
has, and for those of a SPACE it is low. -/
def Obligations.PulseWaveform : Prop :=
  ∀ (d : Nat) (s : State), s.ph = .idle → s.rstIn = [] → CarrierConfigured s → CounterLegal s →
    let ticks := d * (s.params.fSys : Nat) / 1000000
    (∃ t u, exec (.mark d) s = .next t ∧ RunsTo ticks t u ∧ u.ph = .done ∧ u.dly = 0 ∧
      u.now = s.now + ticks ∧ u.wave = s.wave ++ carrierWave s.top s.cmp (phase s) ticks ∧
      phase u = (phase s + ticks) % (2 * s.top)) ∧
    (∃ t u, exec (.space d) s = .next t ∧ RunsTo ticks t u ∧ u.ph = .done ∧ u.dly = 0 ∧
      u.now = s.now + ticks ∧ u.wave = s.wave ++ List.replicate ticks .low)

/-- The delay of `d` microseconds (41_pulse_sequencer.md section 1, 70_reset_and_hazards.md section
3): exact at a whole number of megahertz, else rounded down by less than one tick. -/
def Obligations.DelayTicksRounding : Prop :=
  ∀ (d : Nat) (s : State),
    (waitUs d s = { s with dly := (waitUs d s).dly }) ∧
    (∀ mhz : Nat, (s.params.fSys : Nat) = mhz * 1000000 → (waitUs d s).dly = d * mhz) ∧
    (waitUs d s).dly * 1000000 ≤ d * (s.params.fSys : Nat) ∧
    d * (s.params.fSys : Nat) < ((waitUs d s).dly + 1) * 1000000 ∧ (waitUs 0 s).dly = 0

/-! ### Whole-machine rules -/

/-- The invariants of 10_state.md section 5 (the spec marks them a derivation): every step keeps
them, from every state that has them. -/
def Obligations.StepKeepsInvariant : Prop :=
  ∀ s t : State, Inv s → step s = .next t → Inv t

/-- The invariants hold right after reset, for every value of the two parameters. -/
def Obligations.ResetHasInvariant : Prop :=
  ∀ p : Params, Inv { State.reset with params := p }

/-- 70_reset_and_hazards.md R211: the state after reset. -/
def Obligations.StateAfterReset : Prop :=
  State.reset.ph = .idle ∧ State.reset.cmdReady = true ∧ State.reset.pinDir = .input ∧
    pin State.reset = .z ∧ State.reset.presc = .stopped ∧ State.reset.tmode = .off ∧
    carrier State.reset = false ∧ ¬ CarrierConfigured State.reset ∧
    ∀ w i, decode w = some i →
      step (State.reset.withFetchWord 64 w.toNat) = exec i State.reset

/-- 70_reset_and_hazards.md R210: reset in one step from any state. SHR, unspecified after reset,
and NOW, which the rule does not name, are left out; log entries 3 and 4. -/
def Obligations.ResetFromAnyState : Prop :=
  ∀ s : State, rstNow s = true → ∃ t, step s = .next t ∧
    t.pinDir = .input ∧ t.pinLvl = false ∧ t.tmode = .off ∧ t.presc = .stopped ∧ t.top = 0 ∧
    t.cmp = 0 ∧ t.conn = false ∧ t.cnt = 0 ∧ t.dir = .up ∧ t.dly = 0 ∧ t.bcnt = 0 ∧
    t.ph = .idle ∧ t.err = 0 ∧ t.trace = s.trace ∧ t.wave = s.wave ∧ t.responses = s.responses

/-- `carrier_configured` holds exactly when a CFG has been accepted since reset (10_state.md
section 5), step by step: a step makes it true only by an accepted CFG, and only reset ends it. -/
def Obligations.ConfiguredExactlyByCfg : Prop :=
  ∀ s t : State, step s = .next t →
    (CarrierConfigured t ↔ rstNow s = false ∧
      (CarrierConfigured s ∨ ∃ w f, Accepts s w ∧ decode w = some (.cfg f) ∧
        ¬ CfgRejected s.params f))

/-- Only an accepted CFG, and reset, write the configuration registers (10_state.md section 8). -/
def Obligations.OnlyCfgWritesConfiguration : Prop :=
  ∀ s t : State, step s = .next t → rstNow s = false →
    SameConfig s t ∨ ∃ w f, Accepts s w ∧ decode w = some (.cfg f) ∧ ¬ CfgRejected s.params f ∧
      t.pinDir = .output ∧ t.pinLvl = false ∧ t.tmode = .pcpwm ∧ t.presc = .div1 ∧
      t.top = topCount s.params f ∧ t.cmp = t.top / 3 ∧ t.params = s.params

/-- TRACE grows by `mark` and `space` alone, one pulse at a time, each with its connection and its
delay; CONN changes without a pulse only by an accepted CFG or reset (10_state.md sections 6
and 8). -/
def Obligations.PulsesAreRecorded : Prop :=
  ∀ s t : State, step s = .next t →
    (t.trace = s.trace ∧ (t.conn = s.conn ∨ (t.conn = false ∧ (rstNow s = true ∨
      ∃ w f, Accepts s w ∧ decode w = some (.cfg f) ∧ ¬ CfgRejected s.params f)))) ∨
    (∃ d, t.trace = s.trace ++ [⟨.mark, d⟩] ∧ t.conn = true ∧ t.dly = delayTicks s.params d) ∨
    (∃ d, t.trace = s.trace ++ [⟨.space, d⟩] ∧ t.conn = false ∧ t.dly = delayTicks s.params d)

/-- Time passes only in a tick (41_pulse_sequencer.md section 4): a step without reset leaves time,
WAVE and DIR/CNT alone but for an accepted CFG's draw, or is a tick that does all of a tick. -/
def Obligations.TimePassesOnlyInTicks : Prop :=
  ∀ s t : State, step s = .next t → rstNow s = false →
    (t.now = s.now ∧ t.wave = s.wave ∧
      ((t.cnt = s.cnt ∧ t.dir = s.dir) ∨
        ∃ w f, Accepts s w ∧ decode w = some (.cfg f) ∧ ¬ CfgRejected s.params f)) ∨
    (t.now = s.now + 1 ∧ t.wave = s.wave ++ [pin s] ∧ t.cnt = (counterTick s).cnt ∧
      t.dir = (counterTick s).dir ∧ t.dly = s.dly - 1 ∧ t.ph = s.ph ∧ t.conn = s.conn ∧
      t.trace = s.trace ∧ t.err = s.err ∧ t.shr = s.shr ∧ t.bcnt = s.bcnt)

/-- A command gives its one response when it ends, ERR takes that code, and the block is idle then;
no other step but reset writes ERR (30_encoding.md section 1, 60_exceptions.md section 2). -/
def Obligations.ResponsesAndErrAgree : Prop :=
  ∀ s t : State, step s = .next t → rstNow s = false →
    (t.responses = s.responses ∧ t.err = s.err ∧ (s.ph ≠ .idle → t.ph ≠ .idle)) ∨
    ∃ r, t.responses = s.responses ++ [r] ∧ t.err = r.code ∧ t.ph = .idle ∧
      ((r = .ok ∧ s.ph = .done ∧ s.dly = 0) ∨ ∃ w, Accepts s w)

/-- 10_state.md R36: STATUS bit by bit; reading it changes nothing; the host reads BUSY as 0. -/
def Obligations.StatusOutput : Prop :=
  ∀ s : State,
    s.status.getLsbD 5 = s.conn ∧ (s.status.getLsbD 4 = true ↔ s.ph ≠ .idle) ∧
    s.status.extractLsb' 0 4 = s.err ∧
    (rstNow s = false → s.ph = .idle → s.host.head? = some .readStatus →
      step s = .next { s with
        statusReads := s.statusReads ++ [s.status], host := s.host.tail
        rstIn := s.rstIn.tail } ∧ s.status.getLsbD 4 = false) ∧
    (∀ t, step s = .next t → ∀ x ∈ t.statusReads, x ∈ s.statusReads ∨ x.getLsbD 4 = false)

/-- The block is deaf to its host while a command runs (30_encoding.md section 1): the step does the
same whatever moves the host would make, and makes none of them. -/
def Obligations.BusyBlockIgnoresHost : Prop :=
  ∀ (s : State) (h : List HostMove), s.ph ≠ .idle →
    step { s with host := h } = mapResult (fun t => { t with host := h }) (step s) ∧
    ∀ t, step s = .next t → t.host = s.host

/-- The observations are never read by the block (10_state.md section 6): a step does the same to
everything else whatever they hold. -/
def Obligations.ObservationsAreNeverRead : Prop :=
  ∀ s s' : State, hardwareView s = hardwareView s' →
    mapResult hardwareView (step s) = mapResult hardwareView (step s')

/-- The parameters are constants of the step relation (10_state.md section 4, R42). That the state
carries them is the model's choice, log entry 1. -/
def Obligations.StepKeepsParameters : Prop :=
  ∀ s t : State, step s = .next t → t.params = s.params

/-- Pulses before any CFG leave the pin undriven (70_reset_and_hazards.md section 3), and the
command still runs: in a state whose pin is an input, a step without an accepted CFG keeps it one
and records at most an undriven pin. -/
def Obligations.UnconfiguredPinStaysUndriven : Prop :=
  ∀ s t : State, s.pinDir = .input → step s = .next t →
    (t.wave = s.wave ∨ t.wave = s.wave ++ [.z]) ∧
    (t.pinDir = .input ∨ ∃ w f, Accepts s w ∧ decode w = some (.cfg f))
end

