-- ==== Sys2Proof/Laws/Decode.lean ====
section
/-! SUPPORT. The decoder and the encoder, field by field: what each field of an encoded command is,
that the fields of a word give the word back, and the cases of `decode`. -/

namespace Sys2Proof

/-- An integer in the range of an s`w` operand is read back from its two's complement. -/
theorem toInt_ofInt_of_inSigned {w : Nat} (h : 0 < w) {z : Int} (hz : inSigned w z = true) :
    (BitVec.ofInt w z).toInt = z := by
  simp only [inSigned, Bool.and_eq_true, decide_eq_true_eq] at hz
  obtain ⟨v, rfl⟩ : ∃ v, w = v + 1 := ⟨w - 1, by omega⟩
  rw [BitVec.toInt_ofInt]
  apply Int.bmod_eq_of_le <;>
  · simp only [Nat.add_sub_cancel] at hz
    push_cast
    rw [pow_succ]
    omega

/-- What two's complement reads is in range. -/
theorem inSigned_toInt {w : Nat} (x : BitVec w) : inSigned w x.toInt = true := by
  have h1 := BitVec.le_toInt x
  have h2 := BitVec.toInt_lt (x := x)
  simp only [inSigned, Bool.and_eq_true, decide_eq_true_eq]
  exact ⟨h1, h2⟩

/-! ### Formats C and D (30_encoding.md R84, R86) -/

@[simp] theorem bits_encodeWide_op (op : BitVec 4) (z : Int) :
    bits (encodeWide op z) 60 4 = op := by
  unfold bits encodeWide
  apply BitVec.eq_of_getLsbD_eq
  intro i hi
  simp only [BitVec.getLsbD_extractLsb', BitVec.getLsbD_append]
  grind

@[simp] theorem bits_encodeWide_zero (op : BitVec 4) (z : Int) :
    bits (encodeWide op z) 32 28 = 0 := by
  unfold bits encodeWide
  apply BitVec.eq_of_getLsbD_eq
  intro i hi
  simp only [BitVec.getLsbD_extractLsb', BitVec.getLsbD_append, BitVec.getLsbD_zero]
  grind

@[simp] theorem bits_encodeWide_operand (op : BitVec 4) (z : Int) :
    bits (encodeWide op z) 0 32 = BitVec.ofInt 32 z := by
  unfold bits encodeWide
  apply BitVec.eq_of_getLsbD_eq
  intro i hi
  simp only [BitVec.getLsbD_extractLsb', BitVec.getLsbD_append]
  grind

/-- A word of format C or D is the encoding of its operand. -/
theorem encodeWide_of_bits (w : CmdWord) (op : BitVec 4) (h : bits w 60 4 = op)
    (hz : bits w 32 28 = 0) : encodeWide op (bits w 0 32).toInt = w := by
  rw [encodeWide, BitVec.ofInt_toInt]
  apply BitVec.eq_of_getLsbD_eq
  intro i hi
  have h1 := congrArg (fun x => BitVec.getLsbD x (i - 60)) h
  have h2 := congrArg (fun x => BitVec.getLsbD x (i - 32)) hz
  simp only [bits, BitVec.getLsbD_extractLsb', BitVec.getLsbD_append, BitVec.getLsbD_zero] at *
  grind

/-- Formats C and D as a number (30_encoding.md R95). -/
theorem encodeWide_eq_ofNat (op : BitVec 4) (z : Int) :
    encodeWide op z = BitVec.ofNat 64 (op.toNat <<< 60 ||| (z % 2 ^ 32).toNat) := by
  apply BitVec.eq_of_toNat_eq
  have hz : (z % 2 ^ 32).toNat < 2 ^ 32 := by omega
  have h : (op.toNat <<< 60 ||| (z % 2 ^ 32).toNat) < 2 ^ 64 := by
    apply Nat.or_lt_two_pow
    · rw [Nat.shiftLeft_eq]; have := op.isLt; omega
    · omega
  simp only [encodeWide, BitVec.toNat_append, BitVec.toNat_ofNat, BitVec.toNat_ofInt]
  rw [Nat.mod_eq_of_lt h]
  simp [← Nat.shiftLeft_add]

/-! ### Format S (30_encoding.md R85) -/

section
variable (p : BitVec 4) (v : Work) (n : Int) (r : Bool)

@[simp] theorem bits_encodeSend_op : bits (encodeSend p v n r) 60 4 = 0x2#4 := by
  unfold bits encodeSend
  apply BitVec.eq_of_getLsbD_eq
  intro i hi
  simp only [BitVec.getLsbD_extractLsb', BitVec.getLsbD_append]
  grind

@[simp] theorem bits_encodeSend_proto : bits (encodeSend p v n r) 56 4 = p := by
  unfold bits encodeSend
  apply BitVec.eq_of_getLsbD_eq
  intro i hi
  simp only [BitVec.getLsbD_extractLsb', BitVec.getLsbD_append]
  grind

@[simp] theorem bits_encodeSend_zeroA : bits (encodeSend p v n r) 49 7 = 0 := by
  unfold bits encodeSend
  apply BitVec.eq_of_getLsbD_eq
  intro i hi
  simp only [BitVec.getLsbD_extractLsb', BitVec.getLsbD_append, BitVec.getLsbD_zero]
  grind

@[simp] theorem getLsbD_encodeSend_repeat : (encodeSend p v n r).getLsbD 48 = r := by
  simp only [encodeSend, BitVec.getLsbD_append, BitVec.getLsbD_ofBool]
  grind

@[simp] theorem bits_encodeSend_nbits : bits (encodeSend p v n r) 40 8 = BitVec.ofInt 8 n := by
  unfold bits encodeSend
  apply BitVec.eq_of_getLsbD_eq
  intro i hi
  simp only [BitVec.getLsbD_extractLsb', BitVec.getLsbD_append]
  grind

@[simp] theorem bits_encodeSend_zeroB : bits (encodeSend p v n r) 32 8 = 0 := by
  unfold bits encodeSend
  apply BitVec.eq_of_getLsbD_eq
  intro i hi
  simp only [BitVec.getLsbD_extractLsb', BitVec.getLsbD_append, BitVec.getLsbD_zero]
  grind

@[simp] theorem bits_encodeSend_value : bits (encodeSend p v n r) 0 32 = v := by
  unfold bits encodeSend
  apply BitVec.eq_of_getLsbD_eq
  intro i hi
  simp only [BitVec.getLsbD_extractLsb', BitVec.getLsbD_append]
  grind

end

/-- A word of format S is the encoding of its operands. -/
theorem encodeSend_of_bits (w : CmdWord) (h : bits w 60 4 = 0x2#4) (ha : bits w 49 7 = 0)
    (hb : bits w 32 8 = 0) :
    encodeSend (bits w 56 4) (bits w 0 32) (bits w 40 8).toInt (w.getLsbD 48) = w := by
  rw [encodeSend, BitVec.ofInt_toInt]
  apply BitVec.eq_of_getLsbD_eq
  intro i hi
  have h1 := congrArg (fun x => BitVec.getLsbD x (i - 60)) h
  have h2 := congrArg (fun x => BitVec.getLsbD x (i - 49)) ha
  have h3 := congrArg (fun x => BitVec.getLsbD x (i - 32)) hb
  have h4 : i - 32 - 8 - 8 < 1 → 48 ≤ i → i = 48 := by omega
  simp only [bits, BitVec.getLsbD_extractLsb', BitVec.getLsbD_append, BitVec.getLsbD_zero,
    BitVec.getLsbD_ofBool] at *
  grind

/-! ### The masks of the opcode map -/

/-- A word matches the mask of formats C and D (30_encoding.md R88). -/
theorem and_mask_wide (w : CmdWord) (op : BitVec 4) :
    w &&& 0xFFFFFFFF00000000 = (op ++ 0#60) ↔ bits w 60 4 = op ∧ bits w 32 28 = 0 := by
  rw [show (0xFFFFFFFF00000000 : CmdWord) = BitVec.allOnes 32 ++ 0#32 by decide]
  simp only [BitVec.eq_of_getLsbD_eq_iff, bits, BitVec.getLsbD_and, BitVec.getLsbD_extractLsb', BitVec.getLsbD_append, BitVec.getLsbD_zero, BitVec.getLsbD_allOnes]
  constructor
  · intro h
    refine ⟨fun i hi => ?_, fun i hi => ?_⟩
    · have := h (60 + i) (by omega)
      grind
    · have := h (32 + i) (by omega)
      grind
  · rintro ⟨h1, h2⟩ i hi
    have a := h1 (i - 60)
    have b := h2 (i - 32)
    grind
/-- A word matches SEND's row (30_encoding.md R88). -/
theorem and_mask_send (w : CmdWord) :
    w &&& 0xF0FE00FF00000000 = 0x2000000000000000 ↔ bits w 60 4 = 0x2#4 ∧ bits w 49 7 = 0 ∧ bits w 32 8 = 0 := by
  rw [show (0xF0FE00FF00000000 : CmdWord) = BitVec.allOnes 4 ++ 0#4 ++ BitVec.allOnes 7 ++ 0#9 ++ BitVec.allOnes 8 ++ 0#32 by decide]
  rw [show (0x2000000000000000 : CmdWord) = 0x2#4 ++ 0#60 by decide]
  simp only [BitVec.eq_of_getLsbD_eq_iff, bits, BitVec.getLsbD_and, BitVec.getLsbD_extractLsb', BitVec.getLsbD_append, BitVec.getLsbD_zero, BitVec.getLsbD_allOnes]
  constructor
  · intro h
    refine ⟨fun i hi => ?_, fun i hi => ?_, fun i hi => ?_⟩
    · have := h (60 + i) (by omega)
      grind
    · have := h (49 + i) (by omega)
      grind
    · have := h (32 + i) (by omega)
      grind
  · rintro ⟨h1, h2, h3⟩ i hi
    have a := h1 (i - 60)
    have b := h2 (i - 49)
    have c := h3 (i - 32)
    grind

/-! ### The decoder -/

/-- What a word that decodes looks like: one of the four formats, its operands in place. -/
theorem decode_cases {w : CmdWord} {i : Instr} (h : decode w = some i) :
    (bits w 60 4 = 0x1#4 ∧ bits w 32 28 = 0 ∧ i = .cfg (bits w 0 32).toInt) ∨
    (bits w 60 4 = 0x2#4 ∧ bits w 49 7 = 0 ∧ bits w 32 8 = 0 ∧
      i = .send (bits w 56 4) (bits w 0 32) (bits w 40 8).toInt (w.getLsbD 48)) ∨
    (bits w 60 4 = 0x3#4 ∧ bits w 32 28 = 0 ∧ i = .mark (bits w 0 32).toInt) ∨
    (bits w 60 4 = 0x4#4 ∧ bits w 32 28 = 0 ∧ i = .space (bits w 0 32).toInt) := by
  unfold decode at h
  split_ifs at h with h1 hz h2 hz h3 hz h4 hz <;> simp_all

/-- A decoded command is well-formed. -/
theorem wellFormed_of_decode {w : CmdWord} {i : Instr} (h : decode w = some i) :
    i.wellFormed = true := by
  rcases decode_cases h with ⟨-, -, rfl⟩ | ⟨-, -, -, rfl⟩ | ⟨-, -, rfl⟩ | ⟨-, -, rfl⟩ <;>
    exact inSigned_toInt _

end Sys2Proof
end

