-- ==== Sys2Proof/Laws/State.lean ====
section
/-! SUPPORT. What every update of the state leaves in every field: one lemma per field per update,
true by definition, so that no later proof unfolds a record update. -/

namespace Sys2Proof.Machine

variable (s : State)

/-! #### `connect` (R130) -/

@[simp] theorem connect_params : (connect s).params = s.params := rfl
@[simp] theorem connect_pinDir : (connect s).pinDir = s.pinDir := rfl
@[simp] theorem connect_pinLvl : (connect s).pinLvl = s.pinLvl := rfl
@[simp] theorem connect_tmode : (connect s).tmode = s.tmode := rfl
@[simp] theorem connect_presc : (connect s).presc = s.presc := rfl
@[simp] theorem connect_top : (connect s).top = s.top := rfl
@[simp] theorem connect_cmp : (connect s).cmp = s.cmp := rfl
@[simp] theorem connect_conn : (connect s).conn = true := rfl
@[simp] theorem connect_cnt : (connect s).cnt = s.cnt := rfl
@[simp] theorem connect_dir : (connect s).dir = s.dir := rfl
@[simp] theorem connect_dly : (connect s).dly = s.dly := rfl
@[simp] theorem connect_shr : (connect s).shr = s.shr := rfl
@[simp] theorem connect_bcnt : (connect s).bcnt = s.bcnt := rfl
@[simp] theorem connect_ph : (connect s).ph = s.ph := rfl
@[simp] theorem connect_err : (connect s).err = s.err := rfl
@[simp] theorem connect_trace : (connect s).trace = s.trace := rfl
@[simp] theorem connect_wave : (connect s).wave = s.wave := rfl
@[simp] theorem connect_now : (connect s).now = s.now := rfl
@[simp] theorem connect_responses : (connect s).responses = s.responses := rfl
@[simp] theorem connect_statusReads : (connect s).statusReads = s.statusReads := rfl
@[simp] theorem connect_host : (connect s).host = s.host := rfl
@[simp] theorem connect_rstIn : (connect s).rstIn = s.rstIn := rfl
@[simp] theorem connect_draws : (connect s).draws = s.draws := rfl

/-! #### `disconnect` (R131) -/

@[simp] theorem disconnect_params : (disconnect s).params = s.params := rfl
@[simp] theorem disconnect_pinDir : (disconnect s).pinDir = s.pinDir := rfl
@[simp] theorem disconnect_pinLvl : (disconnect s).pinLvl = s.pinLvl := rfl
@[simp] theorem disconnect_tmode : (disconnect s).tmode = s.tmode := rfl
@[simp] theorem disconnect_presc : (disconnect s).presc = s.presc := rfl
@[simp] theorem disconnect_top : (disconnect s).top = s.top := rfl
@[simp] theorem disconnect_cmp : (disconnect s).cmp = s.cmp := rfl
@[simp] theorem disconnect_conn : (disconnect s).conn = false := rfl
@[simp] theorem disconnect_cnt : (disconnect s).cnt = s.cnt := rfl
@[simp] theorem disconnect_dir : (disconnect s).dir = s.dir := rfl
@[simp] theorem disconnect_dly : (disconnect s).dly = s.dly := rfl
@[simp] theorem disconnect_shr : (disconnect s).shr = s.shr := rfl
@[simp] theorem disconnect_bcnt : (disconnect s).bcnt = s.bcnt := rfl
@[simp] theorem disconnect_ph : (disconnect s).ph = s.ph := rfl
@[simp] theorem disconnect_err : (disconnect s).err = s.err := rfl
@[simp] theorem disconnect_trace : (disconnect s).trace = s.trace := rfl
@[simp] theorem disconnect_wave : (disconnect s).wave = s.wave := rfl
@[simp] theorem disconnect_now : (disconnect s).now = s.now := rfl
@[simp] theorem disconnect_responses : (disconnect s).responses = s.responses := rfl
@[simp] theorem disconnect_statusReads : (disconnect s).statusReads = s.statusReads := rfl
@[simp] theorem disconnect_host : (disconnect s).host = s.host := rfl
@[simp] theorem disconnect_rstIn : (disconnect s).rstIn = s.rstIn := rfl
@[simp] theorem disconnect_draws : (disconnect s).draws = s.draws := rfl

/-! #### `emit` (R45) -/

@[simp] theorem emit_params (p : Pulse) : (emit p s).params = s.params := rfl
@[simp] theorem emit_pinDir (p : Pulse) : (emit p s).pinDir = s.pinDir := rfl
@[simp] theorem emit_pinLvl (p : Pulse) : (emit p s).pinLvl = s.pinLvl := rfl
@[simp] theorem emit_tmode (p : Pulse) : (emit p s).tmode = s.tmode := rfl
@[simp] theorem emit_presc (p : Pulse) : (emit p s).presc = s.presc := rfl
@[simp] theorem emit_top (p : Pulse) : (emit p s).top = s.top := rfl
@[simp] theorem emit_cmp (p : Pulse) : (emit p s).cmp = s.cmp := rfl
@[simp] theorem emit_conn (p : Pulse) : (emit p s).conn = s.conn := rfl
@[simp] theorem emit_cnt (p : Pulse) : (emit p s).cnt = s.cnt := rfl
@[simp] theorem emit_dir (p : Pulse) : (emit p s).dir = s.dir := rfl
@[simp] theorem emit_dly (p : Pulse) : (emit p s).dly = s.dly := rfl
@[simp] theorem emit_shr (p : Pulse) : (emit p s).shr = s.shr := rfl
@[simp] theorem emit_bcnt (p : Pulse) : (emit p s).bcnt = s.bcnt := rfl
@[simp] theorem emit_ph (p : Pulse) : (emit p s).ph = s.ph := rfl
@[simp] theorem emit_err (p : Pulse) : (emit p s).err = s.err := rfl
@[simp] theorem emit_trace (p : Pulse) : (emit p s).trace = s.trace ++ [p] := rfl
@[simp] theorem emit_wave (p : Pulse) : (emit p s).wave = s.wave := rfl
@[simp] theorem emit_now (p : Pulse) : (emit p s).now = s.now := rfl
@[simp] theorem emit_responses (p : Pulse) : (emit p s).responses = s.responses := rfl
@[simp] theorem emit_statusReads (p : Pulse) : (emit p s).statusReads = s.statusReads := rfl
@[simp] theorem emit_host (p : Pulse) : (emit p s).host = s.host := rfl
@[simp] theorem emit_rstIn (p : Pulse) : (emit p s).rstIn = s.rstIn := rfl
@[simp] theorem emit_draws (p : Pulse) : (emit p s).draws = s.draws := rfl

/-! #### `waitUs` (R132) -/

@[simp] theorem waitUs_params (d : Nat) : (waitUs d s).params = s.params := rfl
@[simp] theorem waitUs_pinDir (d : Nat) : (waitUs d s).pinDir = s.pinDir := rfl
@[simp] theorem waitUs_pinLvl (d : Nat) : (waitUs d s).pinLvl = s.pinLvl := rfl
@[simp] theorem waitUs_tmode (d : Nat) : (waitUs d s).tmode = s.tmode := rfl
@[simp] theorem waitUs_presc (d : Nat) : (waitUs d s).presc = s.presc := rfl
@[simp] theorem waitUs_top (d : Nat) : (waitUs d s).top = s.top := rfl
@[simp] theorem waitUs_cmp (d : Nat) : (waitUs d s).cmp = s.cmp := rfl
@[simp] theorem waitUs_conn (d : Nat) : (waitUs d s).conn = s.conn := rfl
@[simp] theorem waitUs_cnt (d : Nat) : (waitUs d s).cnt = s.cnt := rfl
@[simp] theorem waitUs_dir (d : Nat) : (waitUs d s).dir = s.dir := rfl
@[simp] theorem waitUs_dly (d : Nat) : (waitUs d s).dly = delayTicks s.params d := rfl
@[simp] theorem waitUs_shr (d : Nat) : (waitUs d s).shr = s.shr := rfl
@[simp] theorem waitUs_bcnt (d : Nat) : (waitUs d s).bcnt = s.bcnt := rfl
@[simp] theorem waitUs_ph (d : Nat) : (waitUs d s).ph = s.ph := rfl
@[simp] theorem waitUs_err (d : Nat) : (waitUs d s).err = s.err := rfl
@[simp] theorem waitUs_trace (d : Nat) : (waitUs d s).trace = s.trace := rfl
@[simp] theorem waitUs_wave (d : Nat) : (waitUs d s).wave = s.wave := rfl
@[simp] theorem waitUs_now (d : Nat) : (waitUs d s).now = s.now := rfl
@[simp] theorem waitUs_responses (d : Nat) : (waitUs d s).responses = s.responses := rfl
@[simp] theorem waitUs_statusReads (d : Nat) : (waitUs d s).statusReads = s.statusReads := rfl
@[simp] theorem waitUs_host (d : Nat) : (waitUs d s).host = s.host := rfl
@[simp] theorem waitUs_rstIn (d : Nat) : (waitUs d s).rstIn = s.rstIn := rfl
@[simp] theorem waitUs_draws (d : Nat) : (waitUs d s).draws = s.draws := rfl

/-! #### `setPhase` (R34) -/

@[simp] theorem setPhase_params (x : Phase) : (setPhase x s).params = s.params := rfl
@[simp] theorem setPhase_pinDir (x : Phase) : (setPhase x s).pinDir = s.pinDir := rfl
@[simp] theorem setPhase_pinLvl (x : Phase) : (setPhase x s).pinLvl = s.pinLvl := rfl
@[simp] theorem setPhase_tmode (x : Phase) : (setPhase x s).tmode = s.tmode := rfl
@[simp] theorem setPhase_presc (x : Phase) : (setPhase x s).presc = s.presc := rfl
@[simp] theorem setPhase_top (x : Phase) : (setPhase x s).top = s.top := rfl
@[simp] theorem setPhase_cmp (x : Phase) : (setPhase x s).cmp = s.cmp := rfl
@[simp] theorem setPhase_conn (x : Phase) : (setPhase x s).conn = s.conn := rfl
@[simp] theorem setPhase_cnt (x : Phase) : (setPhase x s).cnt = s.cnt := rfl
@[simp] theorem setPhase_dir (x : Phase) : (setPhase x s).dir = s.dir := rfl
@[simp] theorem setPhase_dly (x : Phase) : (setPhase x s).dly = s.dly := rfl
@[simp] theorem setPhase_shr (x : Phase) : (setPhase x s).shr = s.shr := rfl
@[simp] theorem setPhase_bcnt (x : Phase) : (setPhase x s).bcnt = s.bcnt := rfl
@[simp] theorem setPhase_ph (x : Phase) : (setPhase x s).ph = x := rfl
@[simp] theorem setPhase_err (x : Phase) : (setPhase x s).err = s.err := rfl
@[simp] theorem setPhase_trace (x : Phase) : (setPhase x s).trace = s.trace := rfl
@[simp] theorem setPhase_wave (x : Phase) : (setPhase x s).wave = s.wave := rfl
@[simp] theorem setPhase_now (x : Phase) : (setPhase x s).now = s.now := rfl
@[simp] theorem setPhase_responses (x : Phase) : (setPhase x s).responses = s.responses := rfl
@[simp] theorem setPhase_statusReads (x : Phase) : (setPhase x s).statusReads = s.statusReads := rfl
@[simp] theorem setPhase_host (x : Phase) : (setPhase x s).host = s.host := rfl
@[simp] theorem setPhase_rstIn (x : Phase) : (setPhase x s).rstIn = s.rstIn := rfl
@[simp] theorem setPhase_draws (x : Phase) : (setPhase x s).draws = s.draws := rfl

/-! #### `respond` (R181) -/

@[simp] theorem respond_params (r : Response) : (respond r s).params = s.params := rfl
@[simp] theorem respond_pinDir (r : Response) : (respond r s).pinDir = s.pinDir := rfl
@[simp] theorem respond_pinLvl (r : Response) : (respond r s).pinLvl = s.pinLvl := rfl
@[simp] theorem respond_tmode (r : Response) : (respond r s).tmode = s.tmode := rfl
@[simp] theorem respond_presc (r : Response) : (respond r s).presc = s.presc := rfl
@[simp] theorem respond_top (r : Response) : (respond r s).top = s.top := rfl
@[simp] theorem respond_cmp (r : Response) : (respond r s).cmp = s.cmp := rfl
@[simp] theorem respond_conn (r : Response) : (respond r s).conn = s.conn := rfl
@[simp] theorem respond_cnt (r : Response) : (respond r s).cnt = s.cnt := rfl
@[simp] theorem respond_dir (r : Response) : (respond r s).dir = s.dir := rfl
@[simp] theorem respond_dly (r : Response) : (respond r s).dly = s.dly := rfl
@[simp] theorem respond_shr (r : Response) : (respond r s).shr = s.shr := rfl
@[simp] theorem respond_bcnt (r : Response) : (respond r s).bcnt = s.bcnt := rfl
@[simp] theorem respond_ph (r : Response) : (respond r s).ph = s.ph := rfl
@[simp] theorem respond_err (r : Response) : (respond r s).err = r.code := rfl
@[simp] theorem respond_trace (r : Response) : (respond r s).trace = s.trace := rfl
@[simp] theorem respond_wave (r : Response) : (respond r s).wave = s.wave := rfl
@[simp] theorem respond_now (r : Response) : (respond r s).now = s.now := rfl
@[simp] theorem respond_responses (r : Response) : (respond r s).responses = s.responses ++ [r] := rfl
@[simp] theorem respond_statusReads (r : Response) : (respond r s).statusReads = s.statusReads := rfl
@[simp] theorem respond_host (r : Response) : (respond r s).host = s.host := rfl
@[simp] theorem respond_rstIn (r : Response) : (respond r s).rstIn = s.rstIn := rfl
@[simp] theorem respond_draws (r : Response) : (respond r s).draws = s.draws := rfl

/-! #### `configure` (R110) -/

@[simp] theorem configure_params (n : Nat) : (configure n s).params = s.params := rfl
@[simp] theorem configure_pinDir (n : Nat) : (configure n s).pinDir = .output := rfl
@[simp] theorem configure_pinLvl (n : Nat) : (configure n s).pinLvl = false := rfl
@[simp] theorem configure_tmode (n : Nat) : (configure n s).tmode = .pcpwm := rfl
@[simp] theorem configure_presc (n : Nat) : (configure n s).presc = .div1 := rfl
@[simp] theorem configure_top (n : Nat) : (configure n s).top = n := rfl
@[simp] theorem configure_cmp (n : Nat) : (configure n s).cmp = n / 3 := rfl
@[simp] theorem configure_conn (n : Nat) : (configure n s).conn = false := rfl
@[simp] theorem configure_cnt (n : Nat) : (configure n s).cnt = s.cnt := rfl
@[simp] theorem configure_dir (n : Nat) : (configure n s).dir = s.dir := rfl
@[simp] theorem configure_dly (n : Nat) : (configure n s).dly = s.dly := rfl
@[simp] theorem configure_shr (n : Nat) : (configure n s).shr = s.shr := rfl
@[simp] theorem configure_bcnt (n : Nat) : (configure n s).bcnt = s.bcnt := rfl
@[simp] theorem configure_ph (n : Nat) : (configure n s).ph = s.ph := rfl
@[simp] theorem configure_err (n : Nat) : (configure n s).err = s.err := rfl
@[simp] theorem configure_trace (n : Nat) : (configure n s).trace = s.trace := rfl
@[simp] theorem configure_wave (n : Nat) : (configure n s).wave = s.wave := rfl
@[simp] theorem configure_now (n : Nat) : (configure n s).now = s.now := rfl
@[simp] theorem configure_responses (n : Nat) : (configure n s).responses = s.responses := rfl
@[simp] theorem configure_statusReads (n : Nat) : (configure n s).statusReads = s.statusReads := rfl
@[simp] theorem configure_host (n : Nat) : (configure n s).host = s.host := rfl
@[simp] theorem configure_rstIn (n : Nat) : (configure n s).rstIn = s.rstIn := rfl
@[simp] theorem configure_draws (n : Nat) : (configure n s).draws = s.draws := rfl

/-! #### `setCounter` (R120) -/

@[simp] theorem setCounter_params (c : Nat × Dir) : (setCounter c s).params = s.params := rfl
@[simp] theorem setCounter_pinDir (c : Nat × Dir) : (setCounter c s).pinDir = s.pinDir := rfl
@[simp] theorem setCounter_pinLvl (c : Nat × Dir) : (setCounter c s).pinLvl = s.pinLvl := rfl
@[simp] theorem setCounter_tmode (c : Nat × Dir) : (setCounter c s).tmode = s.tmode := rfl
@[simp] theorem setCounter_presc (c : Nat × Dir) : (setCounter c s).presc = s.presc := rfl
@[simp] theorem setCounter_top (c : Nat × Dir) : (setCounter c s).top = s.top := rfl
@[simp] theorem setCounter_cmp (c : Nat × Dir) : (setCounter c s).cmp = s.cmp := rfl
@[simp] theorem setCounter_conn (c : Nat × Dir) : (setCounter c s).conn = s.conn := rfl
@[simp] theorem setCounter_cnt (c : Nat × Dir) : (setCounter c s).cnt = c.1 := rfl
@[simp] theorem setCounter_dir (c : Nat × Dir) : (setCounter c s).dir = c.2 := rfl
@[simp] theorem setCounter_dly (c : Nat × Dir) : (setCounter c s).dly = s.dly := rfl
@[simp] theorem setCounter_shr (c : Nat × Dir) : (setCounter c s).shr = s.shr := rfl
@[simp] theorem setCounter_bcnt (c : Nat × Dir) : (setCounter c s).bcnt = s.bcnt := rfl
@[simp] theorem setCounter_ph (c : Nat × Dir) : (setCounter c s).ph = s.ph := rfl
@[simp] theorem setCounter_err (c : Nat × Dir) : (setCounter c s).err = s.err := rfl
@[simp] theorem setCounter_trace (c : Nat × Dir) : (setCounter c s).trace = s.trace := rfl
@[simp] theorem setCounter_wave (c : Nat × Dir) : (setCounter c s).wave = s.wave := rfl
@[simp] theorem setCounter_now (c : Nat × Dir) : (setCounter c s).now = s.now := rfl
@[simp] theorem setCounter_responses (c : Nat × Dir) : (setCounter c s).responses = s.responses := rfl
@[simp] theorem setCounter_statusReads (c : Nat × Dir) : (setCounter c s).statusReads = s.statusReads := rfl
@[simp] theorem setCounter_host (c : Nat × Dir) : (setCounter c s).host = s.host := rfl
@[simp] theorem setCounter_rstIn (c : Nat × Dir) : (setCounter c s).rstIn = s.rstIn := rfl
@[simp] theorem setCounter_draws (c : Nat × Dir) : (setCounter c s).draws = s.draws := rfl

/-! #### `drawCounter` (R118) -/

@[simp] theorem drawCounter_params : (drawCounter s).params = s.params := rfl
@[simp] theorem drawCounter_pinDir : (drawCounter s).pinDir = s.pinDir := rfl
@[simp] theorem drawCounter_pinLvl : (drawCounter s).pinLvl = s.pinLvl := rfl
@[simp] theorem drawCounter_tmode : (drawCounter s).tmode = s.tmode := rfl
@[simp] theorem drawCounter_presc : (drawCounter s).presc = s.presc := rfl
@[simp] theorem drawCounter_top : (drawCounter s).top = s.top := rfl
@[simp] theorem drawCounter_cmp : (drawCounter s).cmp = s.cmp := rfl
@[simp] theorem drawCounter_conn : (drawCounter s).conn = s.conn := rfl
@[simp] theorem drawCounter_cnt : (drawCounter s).cnt = (counterAt s.top (Config.freePhase s.draws % (2 * s.top))).1 := rfl
@[simp] theorem drawCounter_dir : (drawCounter s).dir = (counterAt s.top (Config.freePhase s.draws % (2 * s.top))).2 := rfl
@[simp] theorem drawCounter_dly : (drawCounter s).dly = s.dly := rfl
@[simp] theorem drawCounter_shr : (drawCounter s).shr = s.shr := rfl
@[simp] theorem drawCounter_bcnt : (drawCounter s).bcnt = s.bcnt := rfl
@[simp] theorem drawCounter_ph : (drawCounter s).ph = s.ph := rfl
@[simp] theorem drawCounter_err : (drawCounter s).err = s.err := rfl
@[simp] theorem drawCounter_trace : (drawCounter s).trace = s.trace := rfl
@[simp] theorem drawCounter_wave : (drawCounter s).wave = s.wave := rfl
@[simp] theorem drawCounter_now : (drawCounter s).now = s.now := rfl
@[simp] theorem drawCounter_responses : (drawCounter s).responses = s.responses := rfl
@[simp] theorem drawCounter_statusReads : (drawCounter s).statusReads = s.statusReads := rfl
@[simp] theorem drawCounter_host : (drawCounter s).host = s.host := rfl
@[simp] theorem drawCounter_rstIn : (drawCounter s).rstIn = s.rstIn := rfl
@[simp] theorem drawCounter_draws : (drawCounter s).draws = s.draws + 1 := rfl

/-! #### `countDown` (R138) -/

@[simp] theorem countDown_params : (countDown s).params = s.params := rfl
@[simp] theorem countDown_pinDir : (countDown s).pinDir = s.pinDir := rfl
@[simp] theorem countDown_pinLvl : (countDown s).pinLvl = s.pinLvl := rfl
@[simp] theorem countDown_tmode : (countDown s).tmode = s.tmode := rfl
@[simp] theorem countDown_presc : (countDown s).presc = s.presc := rfl
@[simp] theorem countDown_top : (countDown s).top = s.top := rfl
@[simp] theorem countDown_cmp : (countDown s).cmp = s.cmp := rfl
@[simp] theorem countDown_conn : (countDown s).conn = s.conn := rfl
@[simp] theorem countDown_cnt : (countDown s).cnt = s.cnt := rfl
@[simp] theorem countDown_dir : (countDown s).dir = s.dir := rfl
@[simp] theorem countDown_dly : (countDown s).dly = s.dly - 1 := rfl
@[simp] theorem countDown_shr : (countDown s).shr = s.shr := rfl
@[simp] theorem countDown_bcnt : (countDown s).bcnt = s.bcnt := rfl
@[simp] theorem countDown_ph : (countDown s).ph = s.ph := rfl
@[simp] theorem countDown_err : (countDown s).err = s.err := rfl
@[simp] theorem countDown_trace : (countDown s).trace = s.trace := rfl
@[simp] theorem countDown_wave : (countDown s).wave = s.wave := rfl
@[simp] theorem countDown_now : (countDown s).now = s.now := rfl
@[simp] theorem countDown_responses : (countDown s).responses = s.responses := rfl
@[simp] theorem countDown_statusReads : (countDown s).statusReads = s.statusReads := rfl
@[simp] theorem countDown_host : (countDown s).host = s.host := rfl
@[simp] theorem countDown_rstIn : (countDown s).rstIn = s.rstIn := rfl
@[simp] theorem countDown_draws : (countDown s).draws = s.draws := rfl

/-! #### `recordTick` (R138) -/

@[simp] theorem recordTick_params : (recordTick s).params = s.params := rfl
@[simp] theorem recordTick_pinDir : (recordTick s).pinDir = s.pinDir := rfl
@[simp] theorem recordTick_pinLvl : (recordTick s).pinLvl = s.pinLvl := rfl
@[simp] theorem recordTick_tmode : (recordTick s).tmode = s.tmode := rfl
@[simp] theorem recordTick_presc : (recordTick s).presc = s.presc := rfl
@[simp] theorem recordTick_top : (recordTick s).top = s.top := rfl
@[simp] theorem recordTick_cmp : (recordTick s).cmp = s.cmp := rfl
@[simp] theorem recordTick_conn : (recordTick s).conn = s.conn := rfl
@[simp] theorem recordTick_cnt : (recordTick s).cnt = s.cnt := rfl
@[simp] theorem recordTick_dir : (recordTick s).dir = s.dir := rfl
@[simp] theorem recordTick_dly : (recordTick s).dly = s.dly := rfl
@[simp] theorem recordTick_shr : (recordTick s).shr = s.shr := rfl
@[simp] theorem recordTick_bcnt : (recordTick s).bcnt = s.bcnt := rfl
@[simp] theorem recordTick_ph : (recordTick s).ph = s.ph := rfl
@[simp] theorem recordTick_err : (recordTick s).err = s.err := rfl
@[simp] theorem recordTick_trace : (recordTick s).trace = s.trace := rfl
@[simp] theorem recordTick_wave : (recordTick s).wave = s.wave ++ [pin s] := rfl
@[simp] theorem recordTick_now : (recordTick s).now = s.now + 1 := rfl
@[simp] theorem recordTick_responses : (recordTick s).responses = s.responses := rfl
@[simp] theorem recordTick_statusReads : (recordTick s).statusReads = s.statusReads := rfl
@[simp] theorem recordTick_host : (recordTick s).host = s.host := rfl
@[simp] theorem recordTick_rstIn : (recordTick s).rstIn = s.rstIn := rfl
@[simp] theorem recordTick_draws : (recordTick s).draws = s.draws := rfl

/-! #### `popRst` (R210) -/

@[simp] theorem popRst_params : (popRst s).params = s.params := rfl
@[simp] theorem popRst_pinDir : (popRst s).pinDir = s.pinDir := rfl
@[simp] theorem popRst_pinLvl : (popRst s).pinLvl = s.pinLvl := rfl
@[simp] theorem popRst_tmode : (popRst s).tmode = s.tmode := rfl
@[simp] theorem popRst_presc : (popRst s).presc = s.presc := rfl
@[simp] theorem popRst_top : (popRst s).top = s.top := rfl
@[simp] theorem popRst_cmp : (popRst s).cmp = s.cmp := rfl
@[simp] theorem popRst_conn : (popRst s).conn = s.conn := rfl
@[simp] theorem popRst_cnt : (popRst s).cnt = s.cnt := rfl
@[simp] theorem popRst_dir : (popRst s).dir = s.dir := rfl
@[simp] theorem popRst_dly : (popRst s).dly = s.dly := rfl
@[simp] theorem popRst_shr : (popRst s).shr = s.shr := rfl
@[simp] theorem popRst_bcnt : (popRst s).bcnt = s.bcnt := rfl
@[simp] theorem popRst_ph : (popRst s).ph = s.ph := rfl
@[simp] theorem popRst_err : (popRst s).err = s.err := rfl
@[simp] theorem popRst_trace : (popRst s).trace = s.trace := rfl
@[simp] theorem popRst_wave : (popRst s).wave = s.wave := rfl
@[simp] theorem popRst_now : (popRst s).now = s.now := rfl
@[simp] theorem popRst_responses : (popRst s).responses = s.responses := rfl
@[simp] theorem popRst_statusReads : (popRst s).statusReads = s.statusReads := rfl
@[simp] theorem popRst_host : (popRst s).host = s.host := rfl
@[simp] theorem popRst_rstIn : (popRst s).rstIn = s.rstIn.tail := rfl
@[simp] theorem popRst_draws : (popRst s).draws = s.draws := rfl

/-! #### `popHost` (R138) -/

@[simp] theorem popHost_params : (popHost s).params = s.params := rfl
@[simp] theorem popHost_pinDir : (popHost s).pinDir = s.pinDir := rfl
@[simp] theorem popHost_pinLvl : (popHost s).pinLvl = s.pinLvl := rfl
@[simp] theorem popHost_tmode : (popHost s).tmode = s.tmode := rfl
@[simp] theorem popHost_presc : (popHost s).presc = s.presc := rfl
@[simp] theorem popHost_top : (popHost s).top = s.top := rfl
@[simp] theorem popHost_cmp : (popHost s).cmp = s.cmp := rfl
@[simp] theorem popHost_conn : (popHost s).conn = s.conn := rfl
@[simp] theorem popHost_cnt : (popHost s).cnt = s.cnt := rfl
@[simp] theorem popHost_dir : (popHost s).dir = s.dir := rfl
@[simp] theorem popHost_dly : (popHost s).dly = s.dly := rfl
@[simp] theorem popHost_shr : (popHost s).shr = s.shr := rfl
@[simp] theorem popHost_bcnt : (popHost s).bcnt = s.bcnt := rfl
@[simp] theorem popHost_ph : (popHost s).ph = s.ph := rfl
@[simp] theorem popHost_err : (popHost s).err = s.err := rfl
@[simp] theorem popHost_trace : (popHost s).trace = s.trace := rfl
@[simp] theorem popHost_wave : (popHost s).wave = s.wave := rfl
@[simp] theorem popHost_now : (popHost s).now = s.now := rfl
@[simp] theorem popHost_responses : (popHost s).responses = s.responses := rfl
@[simp] theorem popHost_statusReads : (popHost s).statusReads = s.statusReads := rfl
@[simp] theorem popHost_host : (popHost s).host = s.host.tail := rfl
@[simp] theorem popHost_rstIn : (popHost s).rstIn = s.rstIn := rfl
@[simp] theorem popHost_draws : (popHost s).draws = s.draws := rfl

/-! #### `sampled` (R138) -/

@[simp] theorem sampled_params : (sampled s).params = s.params := rfl
@[simp] theorem sampled_pinDir : (sampled s).pinDir = s.pinDir := rfl
@[simp] theorem sampled_pinLvl : (sampled s).pinLvl = s.pinLvl := rfl
@[simp] theorem sampled_tmode : (sampled s).tmode = s.tmode := rfl
@[simp] theorem sampled_presc : (sampled s).presc = s.presc := rfl
@[simp] theorem sampled_top : (sampled s).top = s.top := rfl
@[simp] theorem sampled_cmp : (sampled s).cmp = s.cmp := rfl
@[simp] theorem sampled_conn : (sampled s).conn = s.conn := rfl
@[simp] theorem sampled_cnt : (sampled s).cnt = s.cnt := rfl
@[simp] theorem sampled_dir : (sampled s).dir = s.dir := rfl
@[simp] theorem sampled_dly : (sampled s).dly = s.dly := rfl
@[simp] theorem sampled_shr : (sampled s).shr = s.shr := rfl
@[simp] theorem sampled_bcnt : (sampled s).bcnt = s.bcnt := rfl
@[simp] theorem sampled_ph : (sampled s).ph = s.ph := rfl
@[simp] theorem sampled_err : (sampled s).err = s.err := rfl
@[simp] theorem sampled_trace : (sampled s).trace = s.trace := rfl
@[simp] theorem sampled_wave : (sampled s).wave = s.wave := rfl
@[simp] theorem sampled_now : (sampled s).now = s.now := rfl
@[simp] theorem sampled_responses : (sampled s).responses = s.responses := rfl
@[simp] theorem sampled_statusReads : (sampled s).statusReads = s.statusReads := rfl
@[simp] theorem sampled_host : (sampled s).host = s.host.tail := rfl
@[simp] theorem sampled_rstIn : (sampled s).rstIn = s.rstIn.tail := rfl
@[simp] theorem sampled_draws : (sampled s).draws = s.draws := rfl

/-! #### `readStatus` (R36) -/

@[simp] theorem readStatus_params : (readStatus s).params = s.params := rfl
@[simp] theorem readStatus_pinDir : (readStatus s).pinDir = s.pinDir := rfl
@[simp] theorem readStatus_pinLvl : (readStatus s).pinLvl = s.pinLvl := rfl
@[simp] theorem readStatus_tmode : (readStatus s).tmode = s.tmode := rfl
@[simp] theorem readStatus_presc : (readStatus s).presc = s.presc := rfl
@[simp] theorem readStatus_top : (readStatus s).top = s.top := rfl
@[simp] theorem readStatus_cmp : (readStatus s).cmp = s.cmp := rfl
@[simp] theorem readStatus_conn : (readStatus s).conn = s.conn := rfl
@[simp] theorem readStatus_cnt : (readStatus s).cnt = s.cnt := rfl
@[simp] theorem readStatus_dir : (readStatus s).dir = s.dir := rfl
@[simp] theorem readStatus_dly : (readStatus s).dly = s.dly := rfl
@[simp] theorem readStatus_shr : (readStatus s).shr = s.shr := rfl
@[simp] theorem readStatus_bcnt : (readStatus s).bcnt = s.bcnt := rfl
@[simp] theorem readStatus_ph : (readStatus s).ph = s.ph := rfl
@[simp] theorem readStatus_err : (readStatus s).err = s.err := rfl
@[simp] theorem readStatus_trace : (readStatus s).trace = s.trace := rfl
@[simp] theorem readStatus_wave : (readStatus s).wave = s.wave := rfl
@[simp] theorem readStatus_now : (readStatus s).now = s.now := rfl
@[simp] theorem readStatus_responses : (readStatus s).responses = s.responses := rfl
@[simp] theorem readStatus_statusReads : (readStatus s).statusReads = s.statusReads ++ [s.status] := rfl
@[simp] theorem readStatus_host : (readStatus s).host = s.host := rfl
@[simp] theorem readStatus_rstIn : (readStatus s).rstIn = s.rstIn := rfl
@[simp] theorem readStatus_draws : (readStatus s).draws = s.draws := rfl

/-! #### `loadEncoder` (R153) -/

@[simp] theorem loadEncoder_params (v : Work) (n : Nat) : (loadEncoder v n s).params = s.params := rfl
@[simp] theorem loadEncoder_pinDir (v : Work) (n : Nat) : (loadEncoder v n s).pinDir = s.pinDir := rfl
@[simp] theorem loadEncoder_pinLvl (v : Work) (n : Nat) : (loadEncoder v n s).pinLvl = s.pinLvl := rfl
@[simp] theorem loadEncoder_tmode (v : Work) (n : Nat) : (loadEncoder v n s).tmode = s.tmode := rfl
@[simp] theorem loadEncoder_presc (v : Work) (n : Nat) : (loadEncoder v n s).presc = s.presc := rfl
@[simp] theorem loadEncoder_top (v : Work) (n : Nat) : (loadEncoder v n s).top = s.top := rfl
@[simp] theorem loadEncoder_cmp (v : Work) (n : Nat) : (loadEncoder v n s).cmp = s.cmp := rfl
@[simp] theorem loadEncoder_conn (v : Work) (n : Nat) : (loadEncoder v n s).conn = s.conn := rfl
@[simp] theorem loadEncoder_cnt (v : Work) (n : Nat) : (loadEncoder v n s).cnt = s.cnt := rfl
@[simp] theorem loadEncoder_dir (v : Work) (n : Nat) : (loadEncoder v n s).dir = s.dir := rfl
@[simp] theorem loadEncoder_dly (v : Work) (n : Nat) : (loadEncoder v n s).dly = s.dly := rfl
@[simp] theorem loadEncoder_shr (v : Work) (n : Nat) : (loadEncoder v n s).shr = shl32 v (32 - n) := rfl
@[simp] theorem loadEncoder_bcnt (v : Work) (n : Nat) : (loadEncoder v n s).bcnt = BitVec.ofNat 6 n := rfl
@[simp] theorem loadEncoder_ph (v : Work) (n : Nat) : (loadEncoder v n s).ph = s.ph := rfl
@[simp] theorem loadEncoder_err (v : Work) (n : Nat) : (loadEncoder v n s).err = s.err := rfl
@[simp] theorem loadEncoder_trace (v : Work) (n : Nat) : (loadEncoder v n s).trace = s.trace := rfl
@[simp] theorem loadEncoder_wave (v : Work) (n : Nat) : (loadEncoder v n s).wave = s.wave := rfl
@[simp] theorem loadEncoder_now (v : Work) (n : Nat) : (loadEncoder v n s).now = s.now := rfl
@[simp] theorem loadEncoder_responses (v : Work) (n : Nat) : (loadEncoder v n s).responses = s.responses := rfl
@[simp] theorem loadEncoder_statusReads (v : Work) (n : Nat) : (loadEncoder v n s).statusReads = s.statusReads := rfl
@[simp] theorem loadEncoder_host (v : Work) (n : Nat) : (loadEncoder v n s).host = s.host := rfl
@[simp] theorem loadEncoder_rstIn (v : Work) (n : Nat) : (loadEncoder v n s).rstIn = s.rstIn := rfl
@[simp] theorem loadEncoder_draws (v : Work) (n : Nat) : (loadEncoder v n s).draws = s.draws := rfl

/-! #### `nextBit` (R158) -/

@[simp] theorem nextBit_params : (nextBit s).params = s.params := rfl
@[simp] theorem nextBit_pinDir : (nextBit s).pinDir = s.pinDir := rfl
@[simp] theorem nextBit_pinLvl : (nextBit s).pinLvl = s.pinLvl := rfl
@[simp] theorem nextBit_tmode : (nextBit s).tmode = s.tmode := rfl
@[simp] theorem nextBit_presc : (nextBit s).presc = s.presc := rfl
@[simp] theorem nextBit_top : (nextBit s).top = s.top := rfl
@[simp] theorem nextBit_cmp : (nextBit s).cmp = s.cmp := rfl
@[simp] theorem nextBit_conn : (nextBit s).conn = s.conn := rfl
@[simp] theorem nextBit_cnt : (nextBit s).cnt = s.cnt := rfl
@[simp] theorem nextBit_dir : (nextBit s).dir = s.dir := rfl
@[simp] theorem nextBit_dly : (nextBit s).dly = s.dly := rfl
@[simp] theorem nextBit_shr : (nextBit s).shr = shl32 s.shr 1 := rfl
@[simp] theorem nextBit_bcnt : (nextBit s).bcnt = s.bcnt - 1 := rfl
@[simp] theorem nextBit_ph : (nextBit s).ph = s.ph := rfl
@[simp] theorem nextBit_err : (nextBit s).err = s.err := rfl
@[simp] theorem nextBit_trace : (nextBit s).trace = s.trace := rfl
@[simp] theorem nextBit_wave : (nextBit s).wave = s.wave := rfl
@[simp] theorem nextBit_now : (nextBit s).now = s.now := rfl
@[simp] theorem nextBit_responses : (nextBit s).responses = s.responses := rfl
@[simp] theorem nextBit_statusReads : (nextBit s).statusReads = s.statusReads := rfl
@[simp] theorem nextBit_host : (nextBit s).host = s.host := rfl
@[simp] theorem nextBit_rstIn : (nextBit s).rstIn = s.rstIn := rfl
@[simp] theorem nextBit_draws : (nextBit s).draws = s.draws := rfl

/-! #### `takeReset` (R210) -/

@[simp] theorem takeReset_params : (takeReset s).params = s.params := rfl
@[simp] theorem takeReset_pinDir : (takeReset s).pinDir = .input := rfl
@[simp] theorem takeReset_pinLvl : (takeReset s).pinLvl = false := rfl
@[simp] theorem takeReset_tmode : (takeReset s).tmode = .off := rfl
@[simp] theorem takeReset_presc : (takeReset s).presc = .stopped := rfl
@[simp] theorem takeReset_top : (takeReset s).top = 0 := rfl
@[simp] theorem takeReset_cmp : (takeReset s).cmp = 0 := rfl
@[simp] theorem takeReset_conn : (takeReset s).conn = false := rfl
@[simp] theorem takeReset_cnt : (takeReset s).cnt = 0 := rfl
@[simp] theorem takeReset_dir : (takeReset s).dir = .up := rfl
@[simp] theorem takeReset_dly : (takeReset s).dly = 0 := rfl
@[simp] theorem takeReset_shr : (takeReset s).shr = 0 := rfl
@[simp] theorem takeReset_bcnt : (takeReset s).bcnt = 0 := rfl
@[simp] theorem takeReset_ph : (takeReset s).ph = .idle := rfl
@[simp] theorem takeReset_err : (takeReset s).err = 0 := rfl
@[simp] theorem takeReset_trace : (takeReset s).trace = s.trace := rfl
@[simp] theorem takeReset_wave : (takeReset s).wave = s.wave := rfl
@[simp] theorem takeReset_now : (takeReset s).now = 0 := rfl
@[simp] theorem takeReset_responses : (takeReset s).responses = s.responses := rfl
@[simp] theorem takeReset_statusReads : (takeReset s).statusReads = s.statusReads := rfl
@[simp] theorem takeReset_host : (takeReset s).host = s.host := rfl
@[simp] theorem takeReset_rstIn : (takeReset s).rstIn = s.rstIn := rfl
@[simp] theorem takeReset_draws : (takeReset s).draws = s.draws := rfl

/-! #### `counterTick` (R120): it writes CNT and DIR alone -/

@[simp] theorem counterTick_params : (counterTick s).params = s.params := by
  unfold counterTick; split <;> rfl
@[simp] theorem counterTick_pinDir : (counterTick s).pinDir = s.pinDir := by
  unfold counterTick; split <;> rfl
@[simp] theorem counterTick_pinLvl : (counterTick s).pinLvl = s.pinLvl := by
  unfold counterTick; split <;> rfl
@[simp] theorem counterTick_tmode : (counterTick s).tmode = s.tmode := by
  unfold counterTick; split <;> rfl
@[simp] theorem counterTick_presc : (counterTick s).presc = s.presc := by
  unfold counterTick; split <;> rfl
@[simp] theorem counterTick_top : (counterTick s).top = s.top := by
  unfold counterTick; split <;> rfl
@[simp] theorem counterTick_cmp : (counterTick s).cmp = s.cmp := by
  unfold counterTick; split <;> rfl
@[simp] theorem counterTick_conn : (counterTick s).conn = s.conn := by
  unfold counterTick; split <;> rfl
@[simp] theorem counterTick_dly : (counterTick s).dly = s.dly := by
  unfold counterTick; split <;> rfl
@[simp] theorem counterTick_shr : (counterTick s).shr = s.shr := by
  unfold counterTick; split <;> rfl
@[simp] theorem counterTick_bcnt : (counterTick s).bcnt = s.bcnt := by
  unfold counterTick; split <;> rfl
@[simp] theorem counterTick_ph : (counterTick s).ph = s.ph := by
  unfold counterTick; split <;> rfl
@[simp] theorem counterTick_err : (counterTick s).err = s.err := by
  unfold counterTick; split <;> rfl
@[simp] theorem counterTick_trace : (counterTick s).trace = s.trace := by
  unfold counterTick; split <;> rfl
@[simp] theorem counterTick_wave : (counterTick s).wave = s.wave := by
  unfold counterTick; split <;> rfl
@[simp] theorem counterTick_now : (counterTick s).now = s.now := by
  unfold counterTick; split <;> rfl
@[simp] theorem counterTick_responses : (counterTick s).responses = s.responses := by
  unfold counterTick; split <;> rfl
@[simp] theorem counterTick_statusReads : (counterTick s).statusReads = s.statusReads := by
  unfold counterTick; split <;> rfl
@[simp] theorem counterTick_host : (counterTick s).host = s.host := by
  unfold counterTick; split <;> rfl
@[simp] theorem counterTick_rstIn : (counterTick s).rstIn = s.rstIn := by
  unfold counterTick; split <;> rfl
@[simp] theorem counterTick_draws : (counterTick s).draws = s.draws := by
  unfold counterTick; split <;> rfl

end Sys2Proof.Machine
end

