-- ==== Sys2Proof/Laws/Ops.lean ====
section
/-! SUPPORT. One lemma for each shared operation that says everything it can do, so that later
proofs cite it and do not unfold the operation. -/

namespace Sys2Proof.Machine

/-! ### The sequencer and the end of a command -/

/-- `mark(d)` (R133). -/
theorem mark_eq (d : Nat) (s : State) : mark d s = { s with
    conn := true, trace := s.trace ++ [.m d], dly := delayTicks s.params d } := rfl

/-- `space(d)` (R134). -/
theorem space_eq (d : Nat) (s : State) : space d s = { s with
    conn := false, trace := s.trace ++ [.s d], dly := delayTicks s.params d } := rfl

/-- The DONE step (R139). -/
theorem finish_eq (s : State) : finish s = { s with
    ph := .idle, err := 0, responses := s.responses ++ [.ok] } := rfl

/-- A rejection (R187). -/
theorem reject_eq (r : Response) (s : State) : reject r s = { s with
    err := r.code, responses := s.responses ++ [r] } := rfl

/-- `whenReady` answers a next state exactly in IDLE (R82). -/
@[simp] theorem whenReady_eq_next {s a t : State} :
    whenReady s a = .next t ↔ s.ph = .idle ∧ a = t := by
  unfold whenReady; split <;> simp_all

@[simp] theorem whenReady_of_idle {s a : State} (h : s.ph = .idle) :
    whenReady s a = .next a := by simp [h]

@[simp] theorem whenReady_eq_refused {s a : State} {r : Refusal} :
    whenReady s a = .refused r ↔ s.ph ≠ .idle ∧ r = .notReady := by
  unfold whenReady; split <;> simp_all [eq_comm]

@[simp] theorem delayTicks_zero (p : Params) : delayTicks p 0 = 0 := by simp [delayTicks]

@[simp] theorem afterHdr_ne_idle (c : BitVec 6) : afterHdr c ≠ .idle := by
  unfold afterHdr; split <;> simp

/-! ### The commands on an idle block -/

/-- CFG either is rejected or configures the carrier (R110). -/
theorem cfgStep_cases (f : Int) (s : State) :
    (CfgRejected s.params f ∧ cfgStep f s = reject .eFreq s) ∨
    (¬ CfgRejected s.params f ∧
      cfgStep f s = respond .ok (drawCounter (configure (topCount s.params f) s))) := by
  unfold cfgStep; split <;> simp_all

/-- MARK either is rejected or starts its pulse (R136). -/
theorem markStep_cases (d : Int) (s : State) :
    (d < 0 ∧ markStep d s = reject .eDuration s) ∨
    (0 ≤ d ∧ markStep d s = setPhase .done (mark d.toNat s)) := by
  unfold markStep; split <;> simp_all

/-- SPACE either is rejected or starts its pulse (R137). -/
theorem spaceStep_cases (d : Int) (s : State) :
    (d < 0 ∧ spaceStep d s = reject .eDuration s) ∨
    (0 ≤ d ∧ spaceStep d s = setPhase .done (space d.toNat s)) := by
  unfold spaceStep; split <;> simp_all

/-- SEND either is rejected, with the first code that applies, or is accepted (R152, R158). -/
theorem sendStep_cases (p : BitVec 4) (v : Work) (n : Int) (r : Bool) (s : State) :
    (p ≠ jvc ∧ sendStep p v n r s = reject .eProtocol s) ∨
    (p = jvc ∧ (n < 0 ∨ 32 < n) ∧ sendStep p v n r s = reject .eBitcount s) ∨
    (p = jvc ∧ 0 ≤ n ∧ n ≤ 32 ∧ sendStep p v n r s = acceptSend v n.toNat r s) := by
  unfold sendStep sendRejection
  split_ifs with h1 h2
  · simp [h1]
  · simp [Decidable.not_not.mp h1, h2]
  · push Not at h1 h2
    simp [h1, h2]

/-- What an idle block does with a command. -/
def acceptStep (i : Instr) (s : State) : State :=
  match i with
  | .cfg f => cfgStep f s
  | .send p v n r => sendStep p v n r s
  | .mark d => markStep d s
  | .space d => spaceStep d s

/-- `exec` is the acceptance of a command, in IDLE alone (R82). -/
theorem exec_eq (i : Instr) (s : State) : exec i s = whenReady s (acceptStep i s) := by
  cases i <;> rfl

/-- What acceptance can do, said once: a rejection, a configuration, a mark, a space, or the start
of a frame. -/
theorem acceptStep_cases (i : Instr) (s : State) :
    (∃ r, r ≠ .ok ∧ (r = .eDuration → ∃ d < 0, i = .mark d ∨ i = .space d) ∧
      acceptStep i s = reject r s) ∨
    (∃ f, i = .cfg f ∧ ¬ CfgRejected s.params f ∧
      acceptStep i s = respond .ok (drawCounter (configure (topCount s.params f) s))) ∨
    (∃ d, i = .mark d ∧ 0 ≤ d ∧ acceptStep i s = setPhase .done (mark d.toNat s)) ∨
    (∃ d, i = .space d ∧ 0 ≤ d ∧ acceptStep i s = setPhase .done (space d.toNat s)) ∨
    (∃ v n r, i = .send jvc v n r ∧ 0 ≤ n ∧ n ≤ 32 ∧
      acceptStep i s = acceptSend v n.toNat r s) := by
  cases i with
  | cfg f =>
    rcases cfgStep_cases f s with ⟨-, e⟩ | ⟨h, e⟩
    · exact .inl ⟨.eFreq, by decide, by simp, e⟩
    · exact .inr (.inl ⟨f, rfl, h, e⟩)
  | send p v n r =>
    rcases sendStep_cases p v n r s with ⟨-, e⟩ | ⟨-, -, e⟩ | ⟨h, h0, h1, e⟩
    · exact .inl ⟨.eProtocol, by decide, by simp, e⟩
    · exact .inl ⟨.eBitcount, by decide, by simp, e⟩
    · exact .inr (.inr (.inr (.inr ⟨v, n, r, by rw [h], h0, h1, e⟩)))
  | mark d =>
    rcases markStep_cases d s with ⟨h, e⟩ | ⟨h, e⟩
    · exact .inl ⟨.eDuration, by decide, fun _ => ⟨d, h, .inl rfl⟩, e⟩
    · exact .inr (.inr (.inl ⟨d, rfl, h, e⟩))
  | space d =>
    rcases spaceStep_cases d s with ⟨h, e⟩ | ⟨h, e⟩
    · exact .inl ⟨.eDuration, by decide, fun _ => ⟨d, h, .inr rfl⟩, e⟩
    · exact .inr (.inr (.inr (.inl ⟨d, rfl, h, e⟩)))

/-- The first phase of a frame is busy, and a bit phase only while bits remain (R158). -/
theorem firstPhase_cases (r : Bool) (c : BitVec 6) :
    firstPhase r c = .hdrM ∨ (firstPhase r c = .bitM ∧ c ≠ 0) ∨ firstPhase r c = .trlM := by
  unfold firstPhase afterHdr
  split_ifs <;> simp_all

/-- What a control step can do, said once (R158, R139). -/
theorem controlStep_cases (s : State) :
    (s.ph = .idle ∧ controlStep s = s) ∨
    (∃ d x, controlStep s = setPhase x (mark d s) ∧ s.ph ≠ .idle ∧
      (x = .hdrS ∨ (s.ph = .bitM ∧ x = .bitS) ∨ x = .trlS)) ∨
    (∃ d x, controlStep s = setPhase x (space d s) ∧ s.ph ≠ .idle ∧
      (x = afterHdr s.bcnt ∨ x = .done)) ∨
    (s.ph = .bitS ∧ controlStep s =
      setPhase (afterHdr (s.bcnt - 1)) (nextBit (space (bitSpaceUs (topBit s)) s))) ∨
    (s.ph = .done ∧ controlStep s = finish s) := by
  unfold controlStep
  cases h : s.ph with
  | idle => exact .inl ⟨rfl, rfl⟩
  | hdrM => exact .inr (.inl ⟨_, _, rfl, by simp, by simp⟩)
  | hdrS => exact .inr (.inr (.inl ⟨_, _, rfl, by simp, .inl rfl⟩))
  | bitM => exact .inr (.inl ⟨_, _, rfl, by simp, by simp⟩)
  | bitS => exact .inr (.inr (.inr (.inl ⟨rfl, rfl⟩)))
  | trlM => exact .inr (.inl ⟨_, _, rfl, by simp, by simp⟩)
  | trlS => exact .inr (.inr (.inl ⟨_, _, rfl, by simp, .inr rfl⟩))
  | done => exact .inr (.inr (.inr (.inr ⟨rfl, rfl⟩)))

/-- `after_hdr` by the count of bits left (R158). -/
theorem afterHdr_eq (c : BitVec 6) : afterHdr c = if 0 < c then .bitM else .trlM := by
  have h : 0 < c ↔ c ≠ 0 := by
    rw [BitVec.lt_def, ne_eq, ← BitVec.toNat_inj]
    simp
    omega
  unfold afterHdr
  by_cases hc : c = 0 <;> simp_all

/-! ### STATUS (10_state.md R36) -/

@[simp] theorem status_bit5 (s : State) : s.status.getLsbD 5 = s.conn := by
  unfold State.status
  generalize s.conn = c, s.busy = b, s.err = e
  revert c b e
  decide

@[simp] theorem status_bit4 (s : State) : s.status.getLsbD 4 = s.busy := by
  unfold State.status
  generalize s.conn = c, s.busy = b, s.err = e
  revert c b e
  decide

@[simp] theorem status_err (s : State) : s.status.extractLsb' 0 4 = s.err := by
  unfold State.status
  generalize s.conn = c, s.busy = b, s.err = e
  revert c b e
  decide

/-! ### The counter and the carrier -/

/-- The counter rule by cases (R120). -/
theorem counterTick_cases (s : State) :
    (¬ TimerRuns s ∧ counterTick s = s) ∨
    (TimerRuns s ∧ s.dir = .up ∧ s.cnt + 1 = s.top ∧
      counterTick s = { s with cnt := s.top, dir := .down }) ∨
    (TimerRuns s ∧ s.dir = .up ∧ s.cnt + 1 ≠ s.top ∧
      counterTick s = { s with cnt := s.cnt + 1 }) ∨
    (TimerRuns s ∧ s.dir = .down ∧ s.cnt = 1 ∧ counterTick s = { s with cnt := 0, dir := .up }) ∨
    (TimerRuns s ∧ s.dir = .down ∧ s.cnt ≠ 1 ∧ counterTick s = { s with cnt := s.cnt - 1 }) := by
  by_cases h : TimerRuns s
  · have e : counterTick s = setCounter (counterNext s) s := if_pos h
    cases hd : s.dir with
    | up =>
      by_cases hc : s.cnt + 1 = s.top
      · exact .inr (.inl ⟨h, rfl, hc, by simp [e, counterNext, hd, hc, setCounter]⟩)
      · exact .inr (.inr (.inl ⟨h, rfl, hc, by simp [e, counterNext, hd, hc, setCounter]⟩))
    | down =>
      by_cases hc : s.cnt = 1
      · exact .inr (.inr (.inr (.inl ⟨h, rfl, hc, by simp [e, counterNext, hd, hc, setCounter]⟩)))
      · exact .inr (.inr (.inr (.inr ⟨h, rfl, hc, by simp [e, counterNext, hd, hc, setCounter]⟩)))
  · exact .inl ⟨h, if_neg h⟩

/-- The counter's next value depends on the timer's registers alone. -/
theorem counterTick_congr {s t : State} (hm : t.tmode = s.tmode) (hp : t.presc = s.presc)
    (ht : t.top = s.top) (hc : t.cnt = s.cnt) (hd : t.dir = s.dir) :
    (counterTick t).cnt = (counterTick s).cnt ∧ (counterTick t).dir = (counterTick s).dir := by
  have hn : counterNext t = counterNext s := by simp [counterNext, ht, hc, hd]
  by_cases h : TimerRuns s
  · have h' : TimerRuns t := by simpa [TimerRuns, hm, hp, ht] using h
    rw [counterTick, counterTick, if_pos h, if_pos h', hn]
    simp
  · have h' : ¬ TimerRuns t := by simpa [TimerRuns, hm, hp, ht] using h
    rw [counterTick, counterTick, if_neg h, if_neg h']
    exact ⟨hc, hd⟩

/-- The carrier level (R121). -/
theorem carrier_eq_true {s : State} : carrier s = true ↔
    TimerRuns s ∧ ((s.dir = .up ∧ s.cnt < s.cmp) ∨ (s.dir = .down ∧ s.cnt ≤ s.cmp)) := by
  unfold carrier
  cases hd : s.dir <;> simp

/-- A drawn pair lies where R43 (a) says. -/
theorem counterAt_legal {top phi : Nat} (h : phi < 2 * top) :
    ((counterAt top phi).2 = .up ∧ (counterAt top phi).1 < top) ∨
    ((counterAt top phi).2 = .down ∧ 1 ≤ (counterAt top phi).1 ∧ (counterAt top phi).1 ≤ top) := by
  unfold counterAt
  split
  · simp_all
  · simp only [reduceCtorEq, false_and, true_and, false_or]
    omega

/-- A tick, field by field (R138). -/
theorem tick_eq (s : State) : tick s = { s with
    wave := s.wave ++ [pin s], now := s.now + 1, cnt := (counterTick s).cnt
    dir := (counterTick s).dir, dly := s.dly - 1 } := by
  have h : counterTick (recordTick s) = { counterTick s with
      wave := s.wave ++ [pin s], now := s.now + 1 } := by
    unfold counterTick recordTick TimerRuns
    simp only
    split <;> rfl
  unfold tick countDown
  rw [h]
  rcases counterTick_cases s with ⟨-, e⟩ | ⟨-, -, -, e⟩ | ⟨-, -, -, e⟩ | ⟨-, -, -, e⟩ | ⟨-, -, -, e⟩ <;>
    simp [e]

end Sys2Proof.Machine
end

