-- ==== Sys2Proof/Laws/PerInstr.lean ====
section
/-! SUPPORT. Facts stated for every command, one lemma for each constructor. -/

namespace Sys2Proof.Laws.TableRow

/-- The word of a command matches its own row of the opcode map (30_encoding.md R88, R95). -/
def Statement (i : Instr) : Prop :=
  ∃ r ∈ opcodeMap, r.mnemonic = i.mnemonic ∧ r.Matches (encode i)

theorem cfg (f : Int) : Statement (.cfg f) :=
  ⟨_, .head _, rfl, (and_mask_wide _ 0x1#4).2 ⟨bits_encodeWide_op _ _, bits_encodeWide_zero _ _⟩⟩

theorem send (p : BitVec 4) (v : Work) (n : Int) (r : Bool) : Statement (.send p v n r) :=
  ⟨_, .tail _ (.head _), rfl, (and_mask_send _).2 ⟨bits_encodeSend_op p v n r,
    bits_encodeSend_zeroA p v n r, bits_encodeSend_zeroB p v n r⟩⟩

theorem mark (d : Int) : Statement (.mark d) :=
  ⟨_, .tail _ (.tail _ (.head _)), rfl,
    (and_mask_wide _ 0x3#4).2 ⟨bits_encodeWide_op _ _, bits_encodeWide_zero _ _⟩⟩

theorem space (d : Int) : Statement (.space d) :=
  ⟨_, .tail _ (.tail _ (.tail _ (.head _))), rfl,
    (and_mask_wide _ 0x4#4).2 ⟨bits_encodeWide_op _ _, bits_encodeWide_zero _ _⟩⟩

end Sys2Proof.Laws.TableRow
end

