-- ==== Sys2Proof/Laws/Step.lean ====
section
/-! SUPPORT. Everything one step can do, said once. -/

namespace Sys2Proof.Machine

/-- The state a step works on once its inputs are past. -/
theorem sampled_eq (s : State) :
    sampled s = { s with host := s.host.tail, rstIn := s.rstIn.tail } := rfl

/-- Every step is one of these: reset, a control step, a tick (of a running delay or let pass by
the host), a STATUS read, an illegal word, or the acceptance of a command. -/
theorem step_cases (s : State) :
    (rstNow s = true ∧ step s = .next (takeReset (popRst s))) ∨
    (rstNow s = false ∧ s.ph ≠ .idle ∧ s.dly = 0 ∧ step s = .next (controlStep (popRst s))) ∨
    (rstNow s = false ∧ s.ph ≠ .idle ∧ s.dly ≠ 0 ∧ step s = .next (tick (popRst s))) ∨
    (rstNow s = false ∧ s.ph = .idle ∧ (s.host = [] ∨ s.host.head? = some .letTick) ∧
      step s = .next (tick (sampled s))) ∨
    (rstNow s = false ∧ s.ph = .idle ∧ s.host.head? = some .readStatus ∧
      step s = .next (readStatus (sampled s))) ∨
    (∃ w, Accepts s w ∧ decode w = none ∧ step s = .next (reject .eOpcode (sampled s))) ∨
    (∃ w i, Accepts s w ∧ decode w = some i ∧ step s = .next (acceptStep i (sampled s))) := by
  unfold step
  cases hr : rstNow s with
  | true => simp
  | false =>
    by_cases hp : s.ph = .idle
    · have hb : blockStep (popRst s) = hostStep (popRst s) := by simp [blockStep, hp]
      simp only [Bool.false_eq_true, if_false, hb]
      unfold hostStep
      cases hh : (popRst s).host with
      | nil =>
        have hh' : s.host = [] := hh
        have : popRst s = sampled s := by simp [sampled_eq, popRst, hh']
        simp [hp, hh', this]
      | cons m ms =>
        have hh' : s.host = m :: ms := hh
        cases m with
        | letTick => simp [hp, hh', sampled]
        | readStatus => simp [hp, hh', sampled]
        | present w =>
          have hi : (sampled s).ph = .idle := hp
          cases hd : decode w with
          | none => simp [Accepts, hr, hp, hh', accept, hd, whenReady, sampled]
          | some i => simp [Accepts, hr, hp, hh', accept, hd, exec_eq, whenReady, sampled]
    · by_cases hd : s.dly = 0 <;> simp [blockStep, busyStep, hp, hd]

end Sys2Proof.Machine
end

