-- ==== Sys2Proof/Laws/Run.lean ====
section
/-! SUPPORT. Runs of several steps, and everything a running delay does. -/

namespace Sys2Proof.Machine

/-- One more step in front of a run. -/
theorem run_of_next (M : Host.Core) {s t : M.State} (k : Nat) (h : M.step s = .next t) :
    M.run (k + 1) s = M.run k t := by
  simp [Host.Core.run, h]

/-- A run that ends in a state starts with a step that answers a next state. -/
theorem run_succ_inv (M : Host.Core) {s u : M.State} {k : Nat} (h : M.run (k + 1) s = .next u) :
    ∃ t, M.step s = .next t ∧ M.run k t = .next u := by
  cases hs : M.step s with
  | next t => exact ⟨t, rfl, by simpa [Host.Core.run, hs] using h⟩
  | fault r => simp [Host.Core.run, hs] at h
  | refused r => simp [Host.Core.run, hs] at h

/-- A run of no steps. -/
theorem runsTo_zero (s : State) : RunsTo 0 s s := rfl

/-- A step, then a run. -/
theorem runsTo_succ {k : Nat} {s t u : State} (h : step s = .next t) (r : RunsTo k t u) :
    RunsTo (k + 1) s u :=
  (run_of_next core k h).trans r

/-- One step as a run. -/
theorem runsTo_one {s t : State} (h : step s = .next t) : RunsTo 1 s t :=
  runsTo_succ h (runsTo_zero t)

/-- A run starts with a step that answers a next state. -/
theorem runsTo_succ_inv {k : Nat} {s u : State} (h : RunsTo (k + 1) s u) :
    ∃ t, step s = .next t ∧ RunsTo k t u :=
  run_succ_inv core h

/-- Two runs, one after the other. -/
theorem runsTo_trans {j k : Nat} {s t u : State} (h : RunsTo j s t) (r : RunsTo k t u) :
    RunsTo (j + k) s u := by
  induction j generalizing s with
  | zero => cases h; simpa using r
  | succ j ih =>
    obtain ⟨x, hx, hr⟩ := runsTo_succ_inv h
    rw [show j + 1 + k = j + k + 1 by omega]
    exact runsTo_succ hx (ih hr)

/-- With no reset to come, sampling the reset input changes nothing. -/
theorem popRst_of_nil {s : State} (h : s.rstIn = []) : popRst s = s := by
  cases s; simp_all [popRst]

/-- Case (b) of the step relation, with no reset to come. -/
theorem step_of_delay {s : State} (hr : s.rstIn = []) (hp : s.ph ≠ .idle) (hd : s.dly ≠ 0) :
    step s = .next (tick s) := by
  simp [step, rstNow, hr, popRst_of_nil hr, blockStep, busyStep, hp, hd]

/-- Case (a) of the step relation, with no reset to come. -/
theorem step_of_control {s : State} (hr : s.rstIn = []) (hp : s.ph ≠ .idle) (hd : s.dly = 0) :
    step s = .next (controlStep s) := by
  simp [step, rstNow, hr, popRst_of_nil hr, blockStep, busyStep, hp, hd]

/-- Two states with one configuration and one counter go through the same counts. -/
theorem counterTick_iterate_congr (k : Nat) {s t : State} (h1 : t.tmode = s.tmode)
    (h2 : t.presc = s.presc) (h3 : t.top = s.top) (h4 : t.cmp = s.cmp) (h5 : t.cnt = s.cnt)
    (h6 : t.dir = s.dir) :
    (counterTick^[k] t).cnt = (counterTick^[k] s).cnt ∧
      (counterTick^[k] t).dir = (counterTick^[k] s).dir ∧
      carrier (counterTick^[k] t) = carrier (counterTick^[k] s) := by
  induction k generalizing s t with
  | zero =>
    refine ⟨h5, h6, ?_⟩
    cases s; cases t
    simp only at h1 h2 h3 h4 h5 h6
    subst h1 h2 h3 h4 h5 h6
    rfl
  | succ k ih =>
    rw [Function.iterate_succ_apply, Function.iterate_succ_apply]
    obtain ⟨p, q⟩ := counterTick_congr (s := s) (t := t) h1 h2 h3 h5 h6
    apply ih <;> simp [*]

/-- All that `n` ticks of a running delay do: DLY counts down, time and the counter advance by `n`,
and WAVE gets the pin of each tick. -/
theorem runsTo_delay (n : Nat) (s : State) (hr : s.rstIn = []) (hp : s.ph ≠ .idle)
    (hd : n ≤ s.dly) :
    ∃ w : List PinLevel,
      RunsTo n s { s with
        dly := s.dly - n, now := s.now + n, wave := s.wave ++ w
        cnt := (counterTick^[n] s).cnt, dir := (counterTick^[n] s).dir } ∧
      (s.pinDir = .input → w = List.replicate n .z) ∧
      (s.pinDir = .output → s.conn = false → w = List.replicate n (.ofBool s.pinLvl)) ∧
      (s.pinDir = .output → s.conn = true →
        w = (List.range n).map fun k => .ofBool (carrier (counterTick^[k] s))) := by
  induction n generalizing s with
  | zero =>
    refine ⟨[], ?_, by simp, by simp, by simp⟩
    have e : s = { s with
        dly := s.dly - 0, now := s.now + 0, wave := s.wave ++ []
        cnt := (counterTick^[0] s).cnt, dir := (counterTick^[0] s).dir } := by
      cases s; simp_all
    rw [← e]; exact runsTo_zero s
  | succ n ih =>
    have e := step_of_delay hr hp (by omega)
    obtain ⟨w, h1, h2, h3, h4⟩ := ih (tick s) (by simpa [tick_eq]) (by simpa [tick_eq])
      (by simp [tick_eq]; omega)
    have key (k : Nat) := counterTick_iterate_congr k (s := counterTick s) (t := tick s)
      (by simp [tick_eq]) (by simp [tick_eq]) (by simp [tick_eq]) (by simp [tick_eq])
      (by simp [tick_eq]) (by simp [tick_eq])
    refine ⟨pin s :: w, ?_, ?_, ?_, ?_⟩
    · have r := runsTo_succ e h1
      rw [(key n).1, (key n).2.1] at r
      convert r using 1
      rw [Function.iterate_succ_apply, tick_eq]
      simp
      omega
    · intro hi
      rw [h2 (by simpa [tick_eq])]
      simp [pin, hi, List.replicate_succ]
    · intro hi hc
      rw [h3 (by simpa [tick_eq]) (by simpa [tick_eq])]
      simp [pin, hi, hc, List.replicate_succ, tick_eq]
    · intro hi hc
      rw [h4 (by simpa [tick_eq]) (by simpa [tick_eq]), List.range_succ_eq_map]
      simp only [List.map_cons, List.map_map, List.cons.injEq]
      refine ⟨by simp [pin, hi, hc], List.map_congr_left fun k _ => ?_⟩
      rw [(key k).2.2]; rfl

end Sys2Proof.Machine
end

