-- ==== Sys2Proof/Machine/Assembler.lean ====
section
/-! DEFINITION. The assembler of 30_encoding.md R92, R93: one command a line, the pseudo-instructions
and the document's call spellings. Log entry 15. -/

namespace Sys2Proof.Machine

/-- The tokens of a line. -/
inductive Tok where
  | word (cs : List Char)
  | comma
  | lpar
  | rpar
  | eq
deriving DecidableEq, Repr

/-- Names, numbers and a leading minus sign. -/
def isWordChar (c : Char) : Bool := c.isAlphanum || c == '_' || c == '-'

/-- End the word read so far. -/
def flushWord (w : List Char) (ts : List Tok) : List Tok := if w = [] then ts else .word w :: ts

/-- The token of a separator. -/
def sepTok : Char → Option Tok
  | ',' => some .comma
  | '(' => some .lpar
  | ')' => some .rpar
  | '=' => some .eq
  | _ => none

/-- The tokens of a line, `w` the word read so far; a semicolon starts a comment. -/
def lex : List Char → List Char → Option (List Tok)
  | [], w => some (flushWord w [])
  | c :: cs, w =>
    if c = ';' then some (flushWord w [])
    else if isWordChar c then lex cs (w ++ [c])
    else if c = ' ' ∨ c = '\t' then (lex cs []).map (flushWord w)
    else match sepTok c with
      | none => none
      | some t => (lex cs []).map fun ts => flushWord w (t :: ts)

/-- The value of a digit below `base` (10 or 16). -/
def digit (base : Nat) (c : Char) : Option Nat :=
  let v := if c.isDigit then c.toNat - '0'.toNat
    else if 'a' ≤ c ∧ c ≤ 'f' then c.toNat - 'a'.toNat + 10
    else if 'A' ≤ c ∧ c ≤ 'F' then c.toNat - 'A'.toNat + 10
    else base
  if v < base then some v else none

/-- The number the digits `cs` continue from `acc`. -/
def digits (base : Nat) : List Char → Nat → Option Nat
  | [], acc => some acc
  | c :: cs, acc => (digit base c).bind fun v => digits base cs (base * acc + v)

/-- A number in decimal or `0x` hexadecimal (R92). -/
def parseNat : List Char → Option Nat
  | [] => none
  | ['0', 'x'] => none
  | '0' :: 'x' :: cs => digits 16 cs 0
  | cs => digits 10 cs 0

/-- A number with an optional leading minus sign (R92). -/
def parseInt : List Char → Option Int
  | '-' :: cs => (parseNat cs).map fun n => -(n : Int)
  | cs => (parseNat cs).map fun n => (n : Int)

/-- `proto is the word JVC or a number 0..15` (R92). -/
def parseProto (cs : List Char) : Option (BitVec 4) :=
  if cs = "JVC".toList then some 1
  else (parseNat cs).bind fun n => if n < 16 then some (BitVec.ofNat 4 n) else none

/-- A u32 operand (R87). -/
def parseValue (cs : List Char) : Option Work :=
  (parseNat cs).bind fun n => if n < 2 ^ 32 then some (BitVec.ofNat 32 n) else none

/-- `is_repeat is 0 or 1` (R92). -/
def parseFlag (cs : List Char) : Option Bool :=
  if cs = ['0'] then some false else if cs = ['1'] then some true else none

/-- `true`/`false` for 1/0, in the call spellings (R93). -/
def parseCallFlag (cs : List Char) : Option Bool :=
  if cs = "false".toList then some false
  else if cs = "true".toList then some true
  else parseFlag cs

/-- Operands between commas, each a word or `name=word`. -/
def operands : List Tok → Option (List (Option (List Char) × List Char))
  | [.word a] => some [(none, a)]
  | [.word k, .eq, .word a] => some [(some k, a)]
  | .word a :: .comma :: ts => (operands ts).map fun l => (none, a) :: l
  | .word k :: .eq :: .word a :: .comma :: ts => (operands ts).map fun l => (some k, a) :: l
  | _ => none

/-- An operand of a call: in its place, alone or under its own name (R92's example). -/
def callOperand (name : List Char) (op : Option (List Char) × List Char) : Option (List Char) :=
  match op.1 with
  | none => some op.2
  | some k => if k = name then some op.2 else none

/-- SEND from its operands' texts. -/
def parseSend (flag : List Char → Option Bool) (p v n r : List Char) : Option Instr :=
  (parseProto p).bind fun p' => (parseValue v).bind fun v' => (parseInt n).bind fun n' =>
    (flag r).map fun r' => .send p' v' n' r'

/-- A line in the assembler's own spelling (R92), the pseudo-instructions included (R93). -/
def parseLine (m : List Char) (ops : List (List Char)) : Option Instr :=
  if m = "CFG".toList then
    match ops with
    | [f] => (parseInt f).map .cfg
    | _ => none
  else if m = "MARK".toList then
    match ops with
    | [d] => (parseInt d).map .mark
    | _ => none
  else if m = "SPACE".toList then
    match ops with
    | [d] => (parseInt d).map .space
    | _ => none
  else if m = "SEND".toList then
    match ops with
    | [p, v, n, r] => parseSend parseFlag p v n r
    | _ => none
  else if m = "RESEND".toList then
    match ops with
    | [p, v, n] => (parseProto p).bind fun p' => (parseValue v).bind fun v' =>
        (parseInt n).map fun n' => Instr.resend p' v' n'
    | _ => none
  else if m = "OFF".toList then
    match ops with
    | [] => some Instr.off
    | _ => none
  else none

/-- A line in the document's call spelling (R92, R93). -/
def parseCall (m : List Char) (ops : List (Option (List Char) × List Char)) : Option Instr :=
  match ops with
  | [a] =>
    if m = "configure_carrier".toList then
      (callOperand "frequency_khz".toList a).bind fun x => (parseInt x).map .cfg
    else if m = "mark".toList then
      (callOperand "duration_us".toList a).bind fun x => (parseInt x).map .mark
    else if m = "space".toList then
      (callOperand "duration_us".toList a).bind fun x => (parseInt x).map .space
    else none
  | [p, v, n, r] =>
    if m = "send".toList then
      (callOperand "protocol_id".toList p).bind fun p' =>
        (callOperand "value".toList v).bind fun v' =>
          (callOperand "bit_count".toList n).bind fun n' =>
            (callOperand "is_repeat".toList r).bind fun r' => parseSend parseCallFlag p' v' n' r'
    else none
  | _ => none

/-- A line's tokens as a command, in either spelling. -/
def parseToks : List Tok → Option Instr
  | [.word m] => parseLine m []
  | .word m :: .lpar :: ts =>
    if ts.getLast? = some .rpar then (operands ts.dropLast).bind (parseCall m) else none
  | .word m :: ts =>
    (operands ts).bind fun ops =>
      if ops.all fun op => op.1.isNone then parseLine m (ops.map Prod.snd) else none
  | _ => none

/-- The command a line of assembler stands for; none for a line that is no command or whose
operands no command word carries (R87, R92, R93). -/
def assemble (line : List Char) : Option Instr :=
  ((lex line []).bind parseToks).filter Instr.wellFormed

end Sys2Proof.Machine
end

