-- ==== Sys2Proof/Tests/Slice0.lean ====
section
/-! SUPPORT. Tests against the words and the worked values of the spec, and for every obligation
with hypotheses a state and operands that meet them together. A test's source stands in its
docstring: V and T numbers are vectors of 95_test_vectors.md. -/

namespace Sys2Proof.Tests

open Sys2Proof Sys2Proof.Machine

/-! ### Small states -/

/-- Right after reset, with parameters of the vectors. -/
def fresh (p : Params) : State := { State.reset with params := p }

/-- The parameters of most vectors: 8 MHz, 8 bits. -/
def p8 : Params := ⟨8000000, 8⟩

/-- Idle and configured by CFG 38 at 8 MHz (V12), the counter at phase 0. -/
def ready : State :=
  { fresh p8 with
    pinDir := .output, tmode := .pcpwm, presc := .div1, top := 105, cmp := 35 }

/-- Configured, in a phase of a running frame whose next data bit is a 1 and the last. -/
def running (ph : Phase) (dly : Nat) : State :=
  { ready with ph := ph, dly := dly, shr := 0x80000000, bcnt := 1 }

/-- A small carrier (V19): TOP 5, CMP 1. -/
def small (c : Nat) (d : Dir) : State := { ready with top := 5, cmp := 1, cnt := c, dir := d }

/-- `ready` with a word presented. -/
def given (w : CmdWord) : State := presenting w ready

/-- A step answers a next state of which `p` holds. -/
def leads (r : Result) (p : State → Bool) : Bool :=
  match r with
  | .next t => p t
  | .fault _ => false
  | .refused _ => false

/-! ### Well-formedness: an ill-formed term for each check (R87) -/

theorem test_wf_cfg : (Instr.cfg 2147483648).wellFormed = false ∧
    (Instr.cfg (-2147483648)).wellFormed = true := by decide

theorem test_wf_send : (Instr.send 1 0 128 false).wellFormed = false ∧
    (Instr.send 15 0xFFFFFFFF (-128) true).wellFormed = true := by decide

theorem test_wf_mark : (Instr.mark (-2147483649)).wellFormed = false ∧
    (Instr.mark 2147483647).wellFormed = true := by decide

theorem test_wf_space : (Instr.space 4294967296).wellFormed = false ∧
    (Instr.space 2147483647).wellFormed = true := by decide

/-! ### Decoding and encoding -/

/-- V1, V2: format C bit by bit, OP 0001, zero, FREQ. -/
theorem test_decode_cfg :
    decode 0b0001000000000000000000000000000000000000000000000000000000100110 = some (.cfg 38) ∧
    decode 0x10000000FFFFFFDA = some (.cfg (-38)) := by decide

/-- V4: format S bit by bit, OP 0010, PROTO 0001, zero, REPEAT 0, NBITS 00010000, zero, VALUE. -/
theorem test_decode_send :
    decode 0b0010000100000000000100000000000000000000000000000000000000000001 =
      some (.send 1 1 16 false) := by decide

/-- V5, V8, V9. -/
theorem test_decode_send_fields :
    decode 0x2101100000000001 = some (.send 1 1 16 true) ∧
    decode 0x2100FF0000000000 = some (.send 1 0 (-1) false) ∧
    decode 0x2000100000000001 = some (.send 0 1 16 false) := by decide

/-- V10: format D bit by bit, OP 0011, zero, DUR 600. -/
theorem test_decode_mark :
    decode 0b0011000000000000000000000000000000000000000000000000001001011000 =
      some (.mark 600) := by decide

/-- V11, V11a, V11b. -/
theorem test_decode_space :
    decode 0b0100000000000000000000000000000000000000000000000000000000000000 = some (.space 0) ∧
    decode 0x4000000080000000 = some (.space (-2147483648)) ∧
    decode 0x400000007FFFFFFF = some (.space 2147483647) := by decide

/-- V3, V6, V7, V11c. -/
theorem test_decode_illegal :
    decode 0x1000000100000026 = none ∧ decode 0x2102100000000001 = none ∧
    decode 0x2100100100000001 = none ∧ decode 0x0000000000000000 = none ∧
    decode 0x5000000000000000 = none ∧ decode 0xF000000000000000 = none ∧
    decode 0xFFFFFFFFFFFFFFFF = none := by decide

/-- The examples of R95, and V36. -/
theorem test_encode :
    encode (.cfg 38) = 0x1000000000000026 ∧ encode (.send 1 1 16 false) = 0x2100100000000001 ∧
    encode (.send 1 1 16 true) = 0x2101100000000001 ∧ encode (.mark 600) = 0x3000000000000258 ∧
    encode (.space 0) = 0x4000000000000000 ∧ encode (.mark (-1)) = 0x30000000FFFFFFFF ∧
    encode (Instr.resend 1 0xA 4) = 0x210104000000000A ∧ encode Instr.off = 0x4000000000000000 :=
  by decide

/-- The opcode table's own numbering, with the operand's bits dropped. -/
theorem test_table_word :
    decodeTableWord 64 0x3000000000000258 = some (.mark 600) ∧
    decodeTableWord 64 0x2100100000000001 = some (.send 1 1 16 false) ∧
    decodeTableWord 32 0x10000026 = none := by decide

/-! ### The assembler (R92, R93; the lines of programs P1 to P4) -/

theorem test_assemble_lines :
    assemble "CFG   38".toList = some (.cfg 38) ∧
    assemble "SEND JVC, 0x01, 16, 0 ; one frame".toList = some (.send 1 1 16 false) ∧
    assemble "MARK -1".toList = some (.mark (-1)) ∧
    assemble "SPACE 20000".toList = some (.space 20000) := by decide

theorem test_assemble_pseudo :
    assemble "OFF".toList = some (.space 0) ∧
    assemble "RESEND JVC, 0xC2B8, 16".toList = some (.send 1 0xC2B8 16 true) := by decide

theorem test_assemble_calls :
    assemble "send(JVC, value=0x01, bit_count=16, is_repeat=false)".toList =
      some (.send 1 1 16 false) ∧
    assemble "configure_carrier(38)".toList = some (.cfg 38) ∧
    assemble "mark(600)".toList = some (.mark 600) ∧
    assemble "space(0)".toList = some (.space 0) := by decide

/-- No such mnemonic; an operand out of its range (R87); an operand too few; `true` is the call
spelling's. -/
theorem test_assemble_refuses :
    assemble "JUMP 1".toList = none ∧ assemble "CFG 2147483648".toList = none ∧
    assemble "SEND 16, 0, 16, 0".toList = none ∧ assemble "SEND JVC, 0, 16".toList = none ∧
    assemble "SEND JVC, 0, 16, true".toList = none := by decide

/-! ### The commands -/

/-- V12: 8 MHz, 38 kHz. -/
theorem test_cfg_38 : leads (exec (.cfg 38) (fresh p8)) (fun t =>
    t.top == 105 && t.cmp == 35 && t.pinDir == .output && t.tmode == .pcpwm &&
      t.presc == .div1 && t.responses == [.ok]) = true := by decide

/-- V13, V13e: a period that does not fit 8 bits, and one below 1. -/
theorem test_cfg_rejects :
    leads (exec (.cfg 15) (fresh p8)) (fun t => t.err == 2 && t.top == 0) = true ∧
    leads (exec (.cfg 4001) (fresh p8)) (fun t => t.err == 2 && t.top == 0) = true := by decide

/-- V50: the left-justified value of V30. -/
theorem test_send_loads : leads (exec (.send 1 1 16 false) ready) (fun t =>
    t.shr == 0x00010000 && t.bcnt == 16 && t.ph == .hdrM && t.responses == []) = true := by decide

/-- V45, V49: a bad bit count; a bad protocol wins over it. -/
theorem test_send_rejects :
    leads (exec (.send 1 0 33 false) ready) (fun t => t.err == 4 && t.ph == .idle) = true ∧
    leads (exec (.send 0 0 33 false) ready) (fun t => t.err == 3 && t.ph == .idle) = true := by
  decide

/-- V21: the accepting step of MARK 600 at 8 MHz. -/
theorem test_mark_600 : leads (exec (.mark 600) ready) (fun t =>
    t.conn && t.trace == [.m 600] && t.dly == 4800 && t.ph == .done) = true := by decide

/-- V24. -/
theorem test_mark_negative : leads (exec (.mark (-1)) ready) (fun t =>
    t.responses == [.eDuration] && !t.conn && t.trace == [] && t.ph == .idle) = true := by decide

/-- V22: the accepting step of SPACE 0 with the output connected. -/
theorem test_space_0 : leads (exec (.space 0) { ready with conn := true }) (fun t =>
    !t.conn && t.trace == [.s 0] && t.dly == 0 && t.ph == .done && t.now == 0) = true := by decide

/-- V53: STATUS after a rejected SPACE. -/
theorem test_space_negative : leads (exec (.space (-1)) ready) (fun t =>
    t.status == 0b000101#6) = true := by decide

/-- V53, first row: an illegal word, through `step`. -/
theorem test_step_illegal : leads (step (given 0)) (fun t =>
    t.responses == [.eOpcode] && t.status == 0b000001#6 && t.host == []) = true := by decide

/-- V51, the BIT_S line: SHR[31] = 1, a space of 1600, shift and count. -/
theorem test_bit_space : leads (step (running .bitS 0)) (fun t =>
    t.trace == [.s 1600] && t.shr == 0 && t.bcnt == 0 && t.ph == .trlM && !t.conn) = true := by
  decide

/-! ### Time, carrier, frame -/

/-- V20. -/
theorem test_delays :
    delayTicks p8 600 = 4800 ∧ delayTicks p8 0 = 0 ∧ delayTicks ⟨7372800, 8⟩ 600 = 4423 ∧
    delayTicks ⟨7372800, 8⟩ 8000 = 58982 ∧ delayTicks ⟨500000, 8⟩ 1 = 0 ∧
    delayTicks ⟨500000, 8⟩ 3 = 1 := by decide

/-- V19: the carrier at the ends of its high half, and the turns of the counter. -/
theorem test_carrier :
    carrier (small 0 .up) = true ∧ carrier (small 1 .up) = false ∧
    carrier (small 2 .down) = false ∧ carrier (small 1 .down) = true ∧
    counterNext (small 4 .up) = (5, .down) ∧ counterNext (small 1 .down) = (0, .up) := by decide

/-- V37, V33: bit 3 of the value is ignored; a frame of no bits. -/
theorem test_frames :
    frame 0xA 3 true = [.m 600, .s 550, .m 600, .s 1600, .m 600, .s 550, .m 600, .s 0] ∧
    frame 0xDEADBEEF 0 true = [.m 600, .s 0] ∧
    frameDurationUs 0xC2B8 16 false = 38350 := by decide

/-- The same two frames through the big step. -/
theorem test_big_send :
    (bigStep (.send 1 0xA 3 true) ready).trace =
      [.m 600, .s 550, .m 600, .s 1600, .m 600, .s 550, .m 600, .s 0] ∧
    (bigStep (.send 1 0xDEADBEEF 0 true) ready).trace = [.m 600, .s 0] := by decide

/-! ### Witnesses: hypotheses that can be met -/

theorem witness_encode : (Instr.send 15 0xFFFFFFFF 127 true).wellFormed = true ∧
    decode 0x2F017F00FFFFFFFF = some (.send 15 0xFFFFFFFF 127 true) ∧
    decode 0x2001800000000000 = some (.send 0 0 (-128) true) ∧
    decode 0x100000007FFFFFFF = some (.cfg 2147483647) ∧
    decode 0x3000000080000000 = some (.mark (-2147483648)) := by decide

theorem witness_opcodeMap : ∀ r ∈ opcodeMap, r.Matches (r.pattern ||| 0x26) := by decide

/-- A word presented and illegal; and one of each command presented and legal. -/
theorem witness_accepts :
    (Accepts (given 0) 0 ∧ decode 0 = none) ∧
    (Accepts (given 0x1000000000000026) 0x1000000000000026 ∧
      decode 0x1000000000000026 = some (.cfg 38) ∧ ¬ CfgRejected (given 0).params 38) ∧
    (Accepts (given 0x2100100000000001) 0x2100100000000001 ∧
      decode 0x2100100000000001 = some (.send 1 1 16 false)) ∧
    (Accepts (given 0x3000000000000258) 0x3000000000000258 ∧
      decode 0x3000000000000258 = some (.mark 600)) ∧
    (Accepts (given 0x4000000000000000) 0x4000000000000000 ∧
      decode 0x4000000000000000 = some (.space 0)) := by decide

/-- The four clauses of the step outside acceptance. -/
theorem witness_ticks :
    (rstNow (running .bitS 0) = false ∧ (running .bitS 0).ph ≠ .idle ∧ (running .bitS 0).dly = 0) ∧
    (rstNow (running .done 1) = false ∧ (running .done 1).ph ≠ .idle ∧
      0 < (running .done 1).dly) ∧
    (rstNow ready = false ∧ ready.ph = .idle ∧ ready.host = []) ∧
    (let s := { ready with host := [.letTick] };
      rstNow s = false ∧ s.ph = .idle ∧ s.host.head? = some .letTick) := by decide

/-- CFG: 0 and a negative frequency, a period of 0, the last that fits 8 bits and the first that
does not (V13, V13d, V13e). -/
theorem witness_cfg :
    ready.ph = .idle ∧ (0 : Int) ≤ 0 ∧ (-38 : Int) ≤ 0 ∧ topCount p8 4000 = 1 ∧
    topCount p8 4001 = 0 ∧ topCount ⟨510000, 8⟩ 1 = 255 ∧ topMax ⟨510000, 8⟩ = 255 ∧
    topCount ⟨512000, 8⟩ 1 = 256 ∧ (fresh p8).params = p8 := by decide

theorem witness_cfg_twice : ∃ t, exec (.cfg 38) ready = .next t ∧ t.err = 0 := by
  refine ⟨cfgStep 38 ready, rfl, ?_⟩
  decide

/-- MARK and SPACE: both sides of 0, no reset to come, and an undriven pin. -/
theorem witness_mark_space :
    ready.ph = .idle ∧ (-1 : Int) < 0 ∧ (0 : Int) ≤ 0 ∧ ready.rstIn = [] ∧
    (fresh p8).ph = .idle ∧ (fresh p8).rstIn = [] ∧ (fresh p8).pinDir = .input := by decide

/-- SEND: a bit count at each end of its range and just outside, and another protocol. -/
theorem witness_send :
    ready.ph = .idle ∧ 0 ≤ 32 ∧ 32 ≤ 32 ∧ (32 : Int) < 33 ∧ (-1 : Int) < 0 ∧ (2 : BitVec 4) ≠ 1 ∧
    (0 : BitVec 4) ≠ 1 := by decide

/-- A command that ends in a rejection. -/
theorem witness_rejection : ∃ t, exec (.mark (-1)) ready = .next t ∧
    t.responses = ready.responses ++ [.eDuration] ∧ (Response.eDuration ≠ .ok) :=
  ⟨markStep (-1) ready, rfl, rfl, by decide⟩

/-- A word taken from the port and rejected: an illegal one, and MARK -1 (V24). -/
theorem witness_rejection_step : ∀ c ∈ [((0 : CmdWord), Response.eOpcode),
      (0x30000000FFFFFFFF, .eDuration)],
    Accepts (given c.1) c.1 ∧
      leads (step (given c.1)) (fun t => t.responses == (given c.1).responses ++ [c.2]) = true := by
  decide

theorem witness_pulse_frame : ∃ t, exec (.send 1 1 16 true) ready = .next t ∧
    ∀ f, Instr.send 1 1 16 true ≠ .cfg f :=
  ⟨_, rfl, fun _ => Instr.noConfusion⟩

/-- Each phase at a control step. -/
theorem witness_control : ∀ ph ∈ [Phase.hdrM, .hdrS, .bitM, .bitS, .trlM, .trlS, .done],
    rstNow (running ph 0) = false ∧ (running ph 0).dly = 0 ∧ (running ph 0).ph = ph ∧
      (running ph 0).rstIn = [] ∧ (running ph 0).ph ≠ .idle := by decide

/-- A frame's duration and the refinement: an idle block at a whole number of megahertz. -/
theorem witness_frame : ready.ph = .idle ∧ ready.dly = 0 ∧ ready.rstIn = [] ∧
    (ready.params.fSys : Nat) = 8 * 1000000 ∧ 0 ≤ 32 := by decide

/-- The counter stopped; running upward below TOP and at the turn; downward above 1 and at the
turn; the last two are legal counts. -/
theorem witness_counter :
    ¬ TimerRuns (fresh p8) ∧
    (TimerRuns (small 4 .up) ∧ CounterLegal (small 4 .up) ∧ (small 4 .up).cnt + 1 = 5) ∧
    (TimerRuns (small 0 .up) ∧ CounterLegal (small 0 .up)) ∧
    (TimerRuns (small 1 .down) ∧ CounterLegal (small 1 .down)) ∧
    (TimerRuns (small 5 .down) ∧ CounterLegal (small 5 .down)) ∧
    (small 5 .down).cmp < (small 5 .down).top :=
  ⟨by decide, ⟨by decide, .inl (by decide), by decide⟩, ⟨by decide, .inl (by decide)⟩,
    ⟨by decide, by decide, by decide⟩, ⟨by decide, by decide, by decide⟩, by decide⟩

/-- The shortest period, whose carrier is never high (V19b). -/
theorem witness_never_high :
    let s := { ready with top := 1, cmp := 0 }
    TimerRuns s ∧ CounterLegal s ∧ s.cmp = 0 ∧ s.cmp < s.top :=
  ⟨by decide, .inl (by decide), by decide, by decide⟩

/-- The three clauses of the pin function. -/
theorem witness_pin :
    (fresh p8).pinDir = .input ∧ (ready.pinDir = .output ∧ ready.conn = false) ∧
    (let s := { ready with conn := true };
      s.pinDir = .output ∧ s.conn = true) := by decide

theorem witness_configured : ready.ph = .idle ∧ ready.rstIn = [] ∧ CarrierConfigured ready ∧
    CounterLegal ready :=
  ⟨by decide, by decide, by decide, .inl (by decide)⟩

/-- The invariants hold of a configured block in mid-frame, and its step has a next state. -/
theorem witness_inv : Inv (running .bitS 7) ∧ ∃ t, step (running .bitS 7) = .next t :=
  ⟨⟨.inl (by decide), by decide, by decide, by decide, by decide, by decide, by decide, by decide,
    by decide⟩, _, rfl⟩

theorem witness_reset : rstNow { running .bitS 7 with rstIn := [true] } = true := by decide

/-- From an unconfigured block, the step that accepts CFG 38. -/
theorem witness_configure :
    let s := presenting 0x1000000000000026 (fresh p8)
    ¬ CarrierConfigured s ∧ Accepts s 0x1000000000000026 ∧ ¬ CfgRejected s.params 38 ∧
      s.pinDir = .input ∧ leads (step s) (fun t => decide (CarrierConfigured t)) = true := by decide

theorem witness_status :
    let s := { ready with host := [.readStatus] }
    rstNow s = false ∧ s.ph = .idle ∧ s.host.head? = some .readStatus ∧
      leads (step s) (fun t => t.statusReads == [0#6]) = true := by decide

/-- Two states with different records and one hardware. -/
theorem witness_observations :
    let s := { ready with now := 7, trace := [.m 600], statusReads := [0x20#6] }
    s ≠ ready ∧ hardwareView s = hardwareView ready := by decide

/-- A step that runs a pulse before any CFG. -/
theorem witness_unconfigured :
    let s := { fresh p8 with ph := .done, dly := 1 }
    s.pinDir = .input ∧ leads (step s) (fun t => t.wave == [.z]) = true := by decide

end Sys2Proof.Tests
end

section
/-! SUPPORT. The formats of the command words as predicates of the fields, and the settled statements
of 30_encoding.md: the opcode map, the operands and the illegal words. -/

namespace Sys2Proof

/-! ### The formats: what the decoder and the opcode map both ask of a word -/

/-- The OP code and the zero fields of a mnemonic's format (30_encoding.md R84 to R86). -/
def HasFormat (w : CmdWord) : Mnemonic → Prop
  | .CFG => bits w 60 4 = 0x1#4 ∧ bits w 32 28 = 0
  | .SEND => bits w 60 4 = 0x2#4 ∧ bits w 49 7 = 0 ∧ bits w 32 8 = 0
  | .MARK => bits w 60 4 = 0x3#4 ∧ bits w 32 28 = 0
  | .SPACE => bits w 60 4 = 0x4#4 ∧ bits w 32 28 = 0

/-- The decoder reads a mnemonic from exactly the words of its format. -/
theorem decode_mnemonic_iff (w : CmdWord) (m : Mnemonic) :
    (decode w).map Instr.mnemonic = some m ↔ HasFormat w m := by
  constructor
  · intro h
    obtain ⟨i, hi, rfl⟩ := Option.map_eq_some_iff.mp h
    rcases decode_cases hi with ⟨ho, hz, rfl⟩ | ⟨ho, ha, hb, rfl⟩ | ⟨ho, hz, rfl⟩ | ⟨ho, hz, rfl⟩
    · exact ⟨ho, hz⟩
    · exact ⟨ho, ha, hb⟩
    · exact ⟨ho, hz⟩
    · exact ⟨ho, hz⟩
  · cases m with
    | SEND => rintro ⟨ho, ha, hb⟩; simp [decode, ho, ha, hb, Instr.mnemonic]
    | _ => rintro ⟨ho, hz⟩; simp [decode, ho, hz, Instr.mnemonic]

/-- A word is illegal exactly when it has no command's format. -/
theorem decode_eq_none_iff (w : CmdWord) : decode w = none ↔ ∀ m, ¬ HasFormat w m := by
  simp only [← decode_mnemonic_iff, ← Option.eq_none_iff_forall_ne_some, Option.map_eq_none_iff]

/-- A row of the opcode map matches exactly the words of its mnemonic's format. -/
theorem matches_iff_hasFormat {r : OpcodeRow} (hr : r ∈ opcodeMap) (w : CmdWord) :
    r.Matches w ↔ HasFormat w r.mnemonic := by
  simp only [opcodeMap, List.mem_cons, List.not_mem_nil, or_false] at hr
  rcases hr with rfl | rfl | rfl | rfl
  · exact and_mask_wide w 0x1#4
  · exact and_mask_send w
  · exact and_mask_wide w 0x3#4
  · exact and_mask_wide w 0x4#4

/-- A mnemonic has no more than one row. -/
theorem row_eq_of_mnemonic_eq :
    ∀ r ∈ opcodeMap, ∀ q ∈ opcodeMap, r.mnemonic = q.mnemonic → r = q := by decide

/-- Every mnemonic has a row. -/
theorem exists_row (m : Mnemonic) : ∃ r ∈ opcodeMap, r.mnemonic = m := by
  cases m <;> decide

/-- Settles O2: a row's mask and the decoder both ask for the row's format, and a word's mnemonic is
unique. -/
theorem opcodeMapIsExact : Obligations.OpcodeMapIsExact := by
  refine ⟨by decide, fun w => ?_⟩
  have hrow : ∀ r ∈ opcodeMap, r.Matches w ↔ (decode w).map Instr.mnemonic = some r.mnemonic :=
    fun r hr => (matches_iff_hasFormat hr w).trans (decode_mnemonic_iff w _).symm
  refine ⟨hrow, fun r hr q hq hrw hqw => ?_,
    (decode_eq_none_iff w).trans ⟨fun h r hr => ?_, fun h m => ?_⟩⟩
  · have hm : some r.mnemonic = some q.mnemonic :=
      ((hrow r hr).mp hrw).symm.trans ((hrow q hq).mp hqw)
    exact row_eq_of_mnemonic_eq r hr q hq (Option.some.inj hm)
  · exact (matches_iff_hasFormat hr w).not.mpr (h r.mnemonic)
  · obtain ⟨r, hr, rfl⟩ := exists_row m
    exact (matches_iff_hasFormat hr w).not.mp (h r hr)

/-! ### The operands -/

/-- The range of an s32 field (30_encoding.md R87). -/
theorem toInt_s32_range (x : BitVec 32) : -2 ^ 31 ≤ x.toInt ∧ x.toInt ≤ 2 ^ 31 - 1 :=
  ⟨x.le_toInt, Int.le_sub_one_of_lt x.toInt_lt⟩

/-- The range of an s8 field (30_encoding.md R87). -/
theorem toInt_s8_range (x : BitVec 8) : -128 ≤ x.toInt ∧ x.toInt ≤ 127 :=
  ⟨x.le_toInt, Int.le_sub_one_of_lt x.toInt_lt⟩

/-- A bit as a field of width one. -/
theorem getLsbD_iff_extractLsb'_one (w : CmdWord) (k : Nat) :
    w.getLsbD k = true ↔ w.extractLsb' k 1 = 1#1 := by
  simp [BitVec.eq_of_getLsbD_eq_iff]

/-- Settles O3: the decoder's operands are the fields themselves, and each field is in range by its
width. -/
theorem operandsAreExtendedFields : Obligations.OperandsAreExtendedFields := by
  intro w i h
  rcases decode_cases h with ⟨-, -, rfl⟩ | ⟨-, -, -, rfl⟩ | ⟨-, -, rfl⟩ | ⟨-, -, rfl⟩
  · exact ⟨rfl, toInt_s32_range _⟩
  · obtain ⟨hlo, hhi⟩ := toInt_s8_range (bits w 40 8)
    exact ⟨rfl, Nat.le_pred_of_lt (bits w 56 4).isLt, getLsbD_iff_extractLsb'_one w 48,
      rfl, hlo, hhi, rfl, Nat.le_pred_of_lt (bits w 0 32).isLt⟩
  · exact ⟨rfl, toInt_s32_range _⟩
  · exact ⟨rfl, toInt_s32_range _⟩

/-! ### The illegal words -/

/-- The values of OP as 30_encoding.md R90 divides them. -/
theorem opcode_cases : ∀ op : BitVec 4,
    op = 0x0#4 ∨ op = 0x1#4 ∨ op = 0x2#4 ∨ op = 0x3#4 ∨ op = 0x4#4 ∨ 0x5#4 ≤ op := by decide

/-- R90's condition: an OP that names no command, or a "zero" field with a 1. -/
theorem decode_eq_none_iff_fields (w : CmdWord) : decode w = none ↔
    (bits w 60 4 = 0x0#4 ∨ 0x5#4 ≤ bits w 60 4) ∨
    ((bits w 60 4 = 0x1#4 ∨ bits w 60 4 = 0x3#4 ∨ bits w 60 4 = 0x4#4) ∧ bits w 32 28 ≠ 0#28) ∨
    (bits w 60 4 = 0x2#4 ∧ (bits w 49 7 ≠ 0#7 ∨ bits w 32 8 ≠ 0#8)) := by
  have hm : (∀ m, ¬ HasFormat w m) ↔ ¬ HasFormat w .CFG ∧ ¬ HasFormat w .SEND ∧
      ¬ HasFormat w .MARK ∧ ¬ HasFormat w .SPACE :=
    ⟨fun h => ⟨h _, h _, h _, h _⟩, fun ⟨hc, hs, hk, hp⟩ m => by cases m <;> assumption⟩
  rw [decode_eq_none_iff, hm]
  simp only [HasFormat]
  generalize bits w 60 4 = op
  rcases opcode_cases op with rfl | rfl | rfl | rfl | rfl | h5
  · simp
  · simp
  · simp [imp_iff_not_or]
  · simp
  · simp
  · have hne : op ≠ 0x1#4 ∧ op ≠ 0x2#4 ∧ op ≠ 0x3#4 ∧ op ≠ 0x4#4 := by
      refine ⟨?_, ?_, ?_, ?_⟩ <;> rintro rfl <;> exact absurd h5 (by decide)
    simp [h5, hne]

end Sys2Proof

namespace Sys2Proof.Machine

/-- A step that accepts a word is `accept`, with this step's inputs past. -/
theorem step_of_accepts {s : State} {w : CmdWord} (h : Accepts s w) :
    step s = accept w (sampled s) := by
  obtain ⟨hr, hp, hh⟩ := h
  obtain ⟨ms, hms⟩ := List.head?_eq_some_iff.mp hh
  simp [step, hr, blockStep, hp, hostStep, hms, sampled]

/-- An idle block rejects an illegal word (30_encoding.md R90). -/
theorem accept_of_illegal {s : State} {w : CmdWord} (hp : s.ph = .idle) (hd : decode w = none) :
    accept w s = .next (reject .eOpcode s) := by
  simp [accept, hd, hp]

/-- Settles O4: R90's condition by the value of OP, and the rejection of an accepted word that does
not decode. -/
theorem illegalWordIsRejected : Obligations.IllegalWordIsRejected := by
  refine ⟨decode_eq_none_iff_fields, fun s w ha hd => ?_⟩
  have hp : (sampled s).ph = .idle := by
    obtain ⟨-, hp, -⟩ := ha
    exact hp
  calc step s = accept w (sampled s) := step_of_accepts ha
    _ = .next (reject .eOpcode (sampled s)) := accept_of_illegal hp hd

end Sys2Proof.Machine
end

section
/-! SUPPORT. The acceptance of CFG, and the running counter as a phase that counts modulo 2*TOP, with
the settled statements of 40_carrier_generator.md: CFG and its checks, the counter rule and the
carrier level. -/

namespace Sys2Proof

/-- CFG's words (30_encoding.md R84, R87). -/
theorem decode_eq_cfg_iff (w : CmdWord) (f : Int) : decode w = some (.cfg f) ↔
    bits w 60 4 = 0x1#4 ∧ bits w 32 28 = 0 ∧ (bits w 0 32).toInt = f := by
  constructor
  · intro h
    rcases decode_cases h with ⟨ho, hz, e⟩ | ⟨-, -, -, e⟩ | ⟨-, -, e⟩ | ⟨-, -, e⟩
    · exact ⟨ho, hz, (Instr.cfg.inj e).symm⟩
    all_goals cases e
  · rintro ⟨ho, hz, rfl⟩
    simp [decode, ho, hz]

end Sys2Proof

namespace Sys2Proof.Machine

/-- `exec` answers a next state exactly in IDLE, and it is what acceptance makes of the state. -/
theorem exec_eq_next_iff {i : Instr} {s t : State} :
    exec i s = .next t ↔ s.ph = .idle ∧ acceptStep i s = t := by
  rw [exec_eq, whenReady_eq_next]

/-- `exec` on an idle block. -/
theorem exec_of_idle {i : Instr} {s : State} (hp : s.ph = .idle) :
    exec i s = .next (acceptStep i s) :=
  exec_eq_next_iff.mpr ⟨hp, rfl⟩

/-! ### The top-count and the checks of CFG -/

/-- The three truncating divisions as one (40_carrier_generator.md R112). -/
theorem topCount_eq_div (p : Params) (f : Int) :
    topCount p f = (p.fSys : Nat) / (2000 * f.toNat) := by
  rw [topCount, Nat.div_div_eq_div_mul, Nat.div_div_eq_div_mul]
  congr 1
  omega

/-- When the top-count is 0 (40_carrier_generator.md R111 (b)). -/
theorem topCount_eq_zero_iff (p : Params) {f : Int} (hf : 0 < f) :
    topCount p f = 0 ↔ (p.fSys : Int) < 2000 * f := by
  rw [topCount_eq_div, Nat.div_eq_zero_iff]
  omega

/-- CFG's rejection by its three checks (40_carrier_generator.md R111). -/
theorem cfgRejected_iff (p : Params) (f : Int) : CfgRejected p f ↔
    f ≤ 0 ∨ (p.fSys : Int) < 2000 * f ∨ topMax p < topCount p f := by
  by_cases hf : 0 < f
  · rw [CfgRejected, Nat.lt_one_iff, topCount_eq_zero_iff p hf]
  · simp [CfgRejected, Int.not_lt.mp hf]

/-! ### CFG on an idle block -/

/-- A CFG that fails a check answers E_FREQ (40_carrier_generator.md R111). -/
theorem acceptStep_cfg_of_rejected {f : Int} {s : State} (h : CfgRejected s.params f) :
    acceptStep (.cfg f) s = reject .eFreq s := by
  rcases cfgStep_cases f s with ⟨-, e⟩ | ⟨hn, -⟩
  · exact e
  · exact absurd h hn

/-- A CFG that passes its checks configures the carrier (40_carrier_generator.md R110). -/
theorem acceptStep_cfg_of_not_rejected {f : Int} {s : State} (h : ¬ CfgRejected s.params f) :
    acceptStep (.cfg f) s =
      respond .ok (drawCounter (configure (topCount s.params f) s)) := by
  rcases cfgStep_cases f s with ⟨hr, -⟩ | ⟨-, e⟩
  · exact absurd hr h
  · exact e

/-- CFG answers E_FREQ exactly when a check fails: an accepted one responds OK. -/
theorem acceptStep_cfg_eq_reject_iff {f : Int} {s : State} :
    acceptStep (.cfg f) s = reject .eFreq s ↔ CfgRejected s.params f := by
  refine ⟨fun h => ?_, acceptStep_cfg_of_rejected⟩
  by_contra hn
  rw [acceptStep_cfg_of_not_rejected hn] at h
  have herr : Response.ok.code = Response.eFreq.code := congrArg State.err h
  exact absurd herr (by decide)

/-- The draw of a timer with a period writes the counter and its direction, with a pair that R43 (a)
allows (40_carrier_generator.md R118). -/
theorem drawCounter_legal {s : State} (ht : 1 ≤ s.top) : ∃ c d,
    ((d = .up ∧ c < s.top) ∨ (d = .down ∧ 1 ≤ c ∧ c ≤ s.top)) ∧
    drawCounter s = { s with cnt := c, dir := d, draws := s.draws + 1 } :=
  ⟨_, _, counterAt_legal (Nat.mod_lt _ (Nat.mul_pos two_pos ht)), rfl⟩

/-- Settles O10: the format of CFG's words, the readiness `exec` asks for, and the two answers of an
idle block, the accepted one with the pair its draw gives. -/
theorem cfgCommand : Obligations.CfgCommand := by
  refine ⟨fun f w => decode_eq_cfg_iff w f, fun f s t h => (exec_eq_next_iff.mp h).1,
    fun f s hp => ?_⟩
  simp only [exec_of_idle hp]
  refine ⟨fun h => ?_, fun hf h1 hmax => ?_, fun hps hf => ?_⟩
  · rw [acceptStep_cfg_of_rejected h]
    rfl
  · have hn : ¬ CfgRejected s.params f := by
      simp only [CfgRejected, topCount, topMax]
      omega
    obtain ⟨c, d, hlegal, hdraw⟩ := drawCounter_legal (s := configure (topCount s.params f) s) h1
    rw [acceptStep_cfg_of_not_rejected hn, hdraw]
    refine ⟨c, d, _, ?_, rfl⟩
    rcases hlegal with ⟨rfl, hc⟩ | ⟨rfl, hc⟩
    · exact hc
    · exact hc
  · have hn : ¬ CfgRejected s.params f := by
      rw [hps, hf]
      decide
    have htop : topCount s.params f = 105 := by
      rw [hps, hf]
      decide
    refine ⟨_, rfl, ?_⟩
    rw [acceptStep_cfg_of_not_rejected hn, htop]
    exact ⟨rfl, rfl, rfl⟩

/-- Settles O11: the second check is the top-count 0, and only a failed check answers E_FREQ. -/
theorem cfgChecks : Obligations.CfgChecks := by
  intro f s hp
  refine ⟨?_, topCount_eq_zero_iff s.params⟩
  calc f ≤ 0 ∨ (s.params.fSys : Int) < 2000 * f ∨ topMax s.params < topCount s.params f
      ↔ CfgRejected s.params f := (cfgRejected_iff s.params f).symm
    _ ↔ acceptStep (.cfg f) s = reject .eFreq s := acceptStep_cfg_eq_reject_iff.symm
    _ ↔ exec (.cfg f) s = .next (reject .eFreq s) := by simp [exec_of_idle hp]

/-! ### The running counter as a phase (40_carrier_generator.md R122) -/

/-- The state with its counter at phase `phi`. -/
def atPhase (phi : Nat) (s : State) : State := setCounter (counterAt s.top phi) s

/-- A timer runs only with a period. -/
theorem TimerRuns.top_pos {s : State} : TimerRuns s → 1 ≤ s.top := fun ⟨_, _, ht⟩ => ht

/-- A legal count has a phase below 2*TOP. -/
theorem phase_lt {s : State} (ht : 1 ≤ s.top) (hl : CounterLegal s) : phase s < 2 * s.top := by
  cases hd : s.dir with
  | up =>
    simp only [CounterLegal, hd] at hl
    simp only [phase, hd]
    omega
  | down =>
    simp only [CounterLegal, hd] at hl
    simp only [phase, hd]
    omega

/-- A legal count is the one at its phase. -/
theorem atPhase_phase {s : State} (ht : 1 ≤ s.top) (hl : CounterLegal s) :
    atPhase (phase s) s = s := by
  have hc : counterAt s.top (phase s) = (s.cnt, s.dir) := by
    cases hd : s.dir with
    | up =>
      have hlt : s.cnt < s.top := by simp only [CounterLegal, hd] at hl; omega
      simp [counterAt, phase, hd, hlt]
    | down =>
      obtain ⟨h1, h2⟩ : 1 ≤ s.cnt ∧ s.cnt ≤ s.top := by simpa only [CounterLegal, hd] using hl
      have hge : ¬ 2 * s.top - s.cnt < s.top := by omega
      have hsub : 2 * s.top - (2 * s.top - s.cnt) = s.cnt := by omega
      simp [counterAt, phase, hd, hge, hsub]
  rw [atPhase, hc]
  rfl

/-- The counter of a running timer takes its next value. -/
theorem counterTick_of_runs {s : State} (hr : TimerRuns s) :
    counterTick s = setCounter (counterNext s) s := if_pos hr

/-- From one phase the counter goes to the next, modulo 2*TOP: the turns are at TOP - 1 and at
2*TOP - 1. -/
theorem counterNext_atPhase {s : State} {phi : Nat} (hphi : phi < 2 * s.top) :
    counterNext (atPhase phi s) = counterAt s.top ((phi + 1) % (2 * s.top)) := by
  rcases Nat.lt_or_ge phi s.top with hup | hdown
  · have hmod : (phi + 1) % (2 * s.top) = phi + 1 := Nat.mod_eq_of_lt (by omega)
    rw [hmod]
    by_cases hturn : phi + 1 = s.top
    · simp [counterNext, atPhase, counterAt, hup, hturn, Nat.two_mul]
    · have hlt : phi + 1 < s.top := by omega
      simp [counterNext, atPhase, counterAt, hup, hturn, hlt]
  · have hnot : ¬ phi < s.top := by omega
    by_cases hturn : phi + 1 = 2 * s.top
    · have hone : 2 * s.top - phi = 1 := by omega
      have htop : 0 < s.top := by omega
      simp [counterNext, atPhase, counterAt, hnot, hone, hturn, htop]
    · have hmod : (phi + 1) % (2 * s.top) = phi + 1 := Nat.mod_eq_of_lt (by omega)
      have hne : 2 * s.top - phi ≠ 1 := by omega
      have hnot' : ¬ phi + 1 < s.top := by omega
      simp [counterNext, atPhase, counterAt, hnot, hne, hmod, hnot', Nat.sub_sub]

/-- A tick of a running timer advances its phase by one, modulo 2*TOP. -/
theorem counterTick_atPhase {s : State} {phi : Nat} (hr : TimerRuns s) (hphi : phi < 2 * s.top) :
    counterTick (atPhase phi s) = atPhase ((phi + 1) % (2 * s.top)) s := by
  have hr' : TimerRuns (atPhase phi s) := hr
  rw [counterTick_of_runs hr', counterNext_atPhase hphi]
  rfl

/-- `k` ticks of a running timer advance its phase by `k`, modulo 2*TOP. -/
theorem counterTick_iterate {s : State} (hr : TimerRuns s) (hl : CounterLegal s) (k : Nat) :
    counterTick^[k] s = atPhase ((phase s + k) % (2 * s.top)) s := by
  have ht : 1 ≤ s.top := hr.top_pos
  induction k with
  | zero => rw [Nat.add_zero, Nat.mod_eq_of_lt (phase_lt ht hl), atPhase_phase ht hl]; rfl
  | succ k ih =>
    have hlt : (phase s + k) % (2 * s.top) < 2 * s.top := Nat.mod_lt _ (by omega)
    rw [Function.iterate_succ_apply', ih, counterTick_atPhase hr hlt, Nat.mod_add_mod, Nat.add_assoc]

/-- The period of a running counter (40_carrier_generator.md R120). -/
theorem counterTick_iterate_period {s : State} (hr : TimerRuns s) (hl : CounterLegal s) :
    counterTick^[2 * s.top] s = s := by
  have ht : 1 ≤ s.top := hr.top_pos
  rw [counterTick_iterate hr hl, Nat.add_mod_right, Nat.mod_eq_of_lt (phase_lt ht hl),
    atPhase_phase ht hl]

/-- The counter does not see CONN (40_carrier_generator.md R120). -/
theorem counterTick_conn_update (s : State) (c : Bool) :
    counterTick { s with conn := c } = { counterTick s with conn := c } := by
  by_cases hr : TimerRuns s
  · have hr' : TimerRuns { s with conn := c } := hr
    rw [counterTick_of_runs hr, counterTick_of_runs hr']
    rfl
  · have hr' : ¬ TimerRuns { s with conn := c } := hr
    rw [counterTick, counterTick, if_neg hr, if_neg hr']

/-- Settles O31: the rule by the direction and the turn, and the period from the phase. -/
theorem counterRule : Obligations.CounterRule := by
  refine fun s => ⟨fun hr => if_neg hr, fun hm hp ht hl => ?_⟩
  have hr : TimerRuns s := ⟨hm, hp, ht⟩
  refine ⟨fun hd hc => ?_, fun hd hc => ?_, fun hd hc => ?_, fun hd hc => ?_,
    counterTick_iterate_period hr hl, counterTick_conn_update s⟩
  · simp [counterTick_of_runs hr, counterNext, setCounter, hd, hc]
  · simp [counterTick_of_runs hr, counterNext, setCounter, hd, hc]
  · have h1 : s.cnt = 1 := by simp only [CounterLegal, hd] at hl; omega
    simp [counterTick_of_runs hr, counterNext, setCounter, hd, h1]
  · have h1 : s.cnt ≠ 1 := by omega
    simp [counterTick_of_runs hr, counterNext, setCounter, hd, h1]

/-! ### The carrier level (40_carrier_generator.md R121, R122) -/

/-- The phases at which the carrier is high: CMP of them on each side of the counter's zero. -/
def highPhase (top cmp phi : Nat) : Bool := decide (phi < cmp ∨ 2 * top - cmp ≤ phi)

theorem highPhase_eq_true {top cmp phi : Nat} :
    highPhase top cmp phi = true ↔ phi < cmp ∨ 2 * top - cmp ≤ phi := decide_eq_true_iff

/-- The phase decides the carrier of a running timer. -/
theorem carrier_atPhase {s : State} (hr : TimerRuns s) (hc : s.cmp < s.top) (phi : Nat) :
    carrier (atPhase phi s) = highPhase s.top s.cmp phi := by
  have hr' : TimerRuns (atPhase phi s) := hr
  rw [Bool.eq_iff_iff, carrier_eq_true, and_iff_right hr', highPhase_eq_true]
  rcases Nat.lt_or_ge phi s.top with hup | hdown
  · have hnot : ¬ 2 * s.top - s.cmp ≤ phi := by omega
    simp [atPhase, counterAt, hup, hnot]
  · have hnot : ¬ phi < s.top := by omega
    have hiff : 2 * s.top - phi ≤ s.cmp ↔ phi < s.cmp ∨ 2 * s.top - s.cmp ≤ phi := by omega
    simpa [atPhase, counterAt, hnot] using hiff

/-- Over one period, a predicate of the position in the period holds equally often from every
start. -/
theorem count_mod_shift (q : Nat → Bool) (a n : Nat) :
    Nat.count (fun k => q ((a + k) % n)) n = Nat.count (fun k => q k) n := by
  have hstart := Nat.count_add (fun k => q (k % n)) a n
  have hperiod := Nat.count_add (fun k => q (k % n)) n a
  have hbase : Nat.count (fun k => q (k % n)) n = Nat.count (fun k => q k) n :=
    List.countP_congr fun k hk => by simp [Nat.mod_eq_of_lt (List.mem_range.mp hk)]
  simp only [Nat.add_mod_left, Nat.add_comm n a] at hperiod
  omega

/-- In 2*TOP phases there are 2*CMP high ones. -/
theorem count_highPhase {top cmp : Nat} (hc : cmp < top) :
    Nat.count (fun k => highPhase top cmp k) (2 * top) = 2 * cmp := by
  have hsplit : 2 * top = cmp + (2 * top - 2 * cmp) + cmp := by omega
  have hfirst : Nat.count (fun k => highPhase top cmp k) cmp = cmp :=
    Nat.count_of_forall fun k hk => highPhase_eq_true.mpr (by omega)
  have hlow : Nat.count (fun k => highPhase top cmp (cmp + k)) (2 * top - 2 * cmp) = 0 :=
    Nat.count_of_forall_not fun k hk => highPhase_eq_true.not.mpr (by omega)
  have hlast : Nat.count (fun k => highPhase top cmp (cmp + (2 * top - 2 * cmp) + k)) cmp = cmp :=
    Nat.count_of_forall fun k hk => highPhase_eq_true.mpr (by omega)
  rw [hsplit, Nat.count_add, Nat.count_add, hfirst, hlow, hlast]
  omega

/-- The high time of a period (40_carrier_generator.md R121). -/
theorem countP_carrier_period {s : State} (hr : TimerRuns s) (hl : CounterLegal s)
    (hc : s.cmp < s.top) :
    ((List.range (2 * s.top)).countP fun k => carrier (counterTick^[k] s)) = 2 * s.cmp := by
  have hk (k : Nat) : carrier (counterTick^[k] s) =
      highPhase s.top s.cmp ((phase s + k) % (2 * s.top)) := by
    rw [counterTick_iterate hr hl, carrier_atPhase hr hc]
  calc (List.range (2 * s.top)).countP (fun k => carrier (counterTick^[k] s))
      = Nat.count (fun k => highPhase s.top s.cmp ((phase s + k) % (2 * s.top))) (2 * s.top) := by
        simp [hk, Nat.count]
    _ = Nat.count (fun k => highPhase s.top s.cmp k) (2 * s.top) := count_mod_shift _ _ _
    _ = 2 * s.cmp := count_highPhase hc

/-- A timer that does not run has no carrier (40_carrier_generator.md R121). -/
theorem carrier_of_not_runs {s : State} (h : ¬ TimerRuns s) : carrier s = false := by
  simp [carrier, h]

/-- With CMP = 0 there is no carrier: a legal downward count is never 0. -/
theorem carrier_of_cmp_zero {s : State} (hc : s.cmp = 0) (hl : CounterLegal s) :
    carrier s = false := by
  rw [Bool.eq_false_iff, ne_eq, carrier_eq_true, hc]
  rintro ⟨-, ⟨-, hlt⟩ | ⟨hd, hle⟩⟩
  · exact Nat.not_lt_zero _ hlt
  · simp only [CounterLegal, hd] at hl
    omega

/-- Settles O32: the level as the rule gives it, and the high phases of a period counted from the
phase the counter has. -/
theorem carrierLevel : Obligations.CarrierLevel := by
  refine fun s => ⟨carrier_eq_true, fun h => ?_, carrier_of_cmp_zero, countP_carrier_period⟩
  apply carrier_of_not_runs
  rintro ⟨hm, hp, ht⟩
  rcases h with hm' | hp' | ht'
  · exact hm' hm
  · exact hp' hp
  · omega

end Sys2Proof.Machine
end

section
/-! SUPPORT. MARK and SPACE as one command over the kind of its pulse, the run of a command's last
delay and its DONE step, and the settled statements of 41_pulse_sequencer.md: the two commands, the
DONE step and the pin. -/

namespace Sys2Proof.Machine

/-! ### The pin (41_pulse_sequencer.md R140) -/

/-- The block does not drive a pin in input direction. -/
theorem pin_of_input {s : State} (h : s.pinDir = .input) : pin s = .z := by
  simp [pin, h]

/-- A connected pin shows the carrier. -/
theorem pin_of_connected {s : State} (h : s.pinDir = .output) (hc : s.conn = true) :
    pin s = .ofBool (carrier s) := by
  simp [pin, h, hc]

/-- A disconnected pin shows PIN_LVL. -/
theorem pin_of_disconnected {s : State} (h : s.pinDir = .output) (hc : s.conn = false) :
    pin s = .ofBool s.pinLvl := by
  simp [pin, h, hc]

/-- `ir_out` carries the value of a driven pin. -/
theorem irOut_of_pin_eq_ofBool {s : State} {b : Bool} (h : pin s = .ofBool b) :
    irOut s = some b := by
  cases b <;> simp [irOut, h, PinLevel.ofBool]

/-- `ir_oe` is PIN_DIR's code. -/
theorem irOe_eq (s : State) : irOe s = s.pinDir.code := rfl

/-- Settles O34: the three cases of the pin, with the ports; low when disconnected because the
invariants keep PIN_LVL at 0. -/
theorem pinFunction : Obligations.PinFunction := by
  refine fun s => ⟨fun h => ?_, fun h hc => ?_, fun h hc => ?_⟩
  · exact ⟨pin_of_input h, by rw [irOe_eq, h]; rfl⟩
  · have hpin := pin_of_connected h hc
    exact ⟨hpin, by rw [irOe_eq, h]; rfl, irOut_of_pin_eq_ofBool hpin⟩
  · have hpin := pin_of_disconnected h hc
    refine ⟨hpin, by rw [irOe_eq, h]; rfl, irOut_of_pin_eq_ofBool hpin, fun hinv => ?_⟩
    rw [hpin, hinv.pinLvl]
    rfl

/-! ### The DONE step (41_pulse_sequencer.md R139) -/

/-- Case (a) of the step relation in phase DONE, with `rst` low. -/
theorem step_of_done {s : State} (hr : rstNow s = false) (hp : s.ph = .done) (hd : s.dly = 0) :
    step s = .next (finish (popRst s)) := by
  simp [step, hr, blockStep, busyStep, controlStep, hp, hd]

/-- Settles O23: case (a) of the step relation in phase DONE, field by field. -/
theorem doneStepResponds : Obligations.DoneStepResponds := fun _ hr hp hd =>
  step_of_done hr hp hd

/-! ### The run of a command's last delay (41_pulse_sequencer.md R138, R139) -/

/-- While a delay runs, the block only lets time pass. -/
theorem exists_runsTo_of_le_dly {s : State} (hr : s.rstIn = []) (hp : s.ph ≠ .idle) {k : Nat}
    (hk : k ≤ s.dly) :
    ∃ x, RunsTo k s x ∧ x.conn = s.conn ∧ x.ph = s.ph ∧ x.now = s.now + k := by
  obtain ⟨w, hrun, -⟩ := runsTo_delay k s hr hp hk
  exact ⟨_, hrun, rfl, rfl, rfl⟩

/-- A block in phase DONE runs its delay in full, with CONN as it is, then ends the command with OK
in zero time. -/
theorem exists_runsTo_idle_of_done {s : State} (hr : s.rstIn = []) (hp : s.ph = .done) :
    ∃ u, RunsTo (s.dly + 1) s u ∧ u.ph = .idle ∧ u.err = 0 ∧
      u.responses = s.responses ++ [.ok] ∧ u.conn = s.conn ∧ u.trace = s.trace ∧
      (∀ k ≤ s.dly, ∃ x, RunsTo k s x ∧ x.conn = s.conn ∧ x.ph = s.ph ∧ x.now = s.now + k) ∧
      u.now = s.now + s.dly ∧
      (s.pinDir = .input → u.wave = s.wave ++ List.replicate s.dly .z) := by
  have hbusy : s.ph ≠ .idle := by simp [hp]
  have hlow : rstNow s = false := by simp [rstNow, hr]
  obtain ⟨w, hdelay, hundriven, -⟩ := runsTo_delay s.dly s hr hbusy le_rfl
  have hrun := runsTo_trans hdelay (runsTo_one (step_of_done hlow hp (Nat.sub_self s.dly)))
  exact ⟨_, hrun, rfl, rfl, rfl, rfl, rfl, fun k hk => exists_runsTo_of_le_dly hr hbusy hk, rfl,
    fun hi => congrArg (s.wave ++ ·) (hundriven hi)⟩

/-! ### MARK and SPACE as one command (41_pulse_sequencer.md R136, R137) -/

/-- The host command that emits a pulse of the given kind. -/
def pulseCommand : PulseKind → Int → Instr
  | .mark => .mark
  | .space => .space

/-- Its OP code (30_encoding.md R86). -/
def pulseOpcode : PulseKind → BitVec 4
  | .mark => 0x3#4
  | .space => 0x4#4

/-- The value of CONN during a pulse (41_pulse_sequencer.md R133, R134). -/
def pulseConn : PulseKind → Bool
  | .mark => true
  | .space => false

/-- A block that has just accepted a pulse of `d` microseconds. -/
def startPulse (q : PulseKind) (d : Nat) (s : State) : State :=
  { s with
    conn := pulseConn q, trace := s.trace ++ [⟨q, d⟩], dly := delayTicks s.params d, ph := .done }

/-- The words of MARK and SPACE. -/
theorem decode_eq_pulseCommand_iff (q : PulseKind) (d : Int) (w : CmdWord) :
    decode w = some (pulseCommand q d) ↔
      bits w 60 4 = pulseOpcode q ∧ bits w 32 28 = 0 ∧ (bits w 0 32).toInt = d := by
  constructor
  · intro h
    rcases decode_cases h with ⟨-, -, e⟩ | ⟨-, -, -, e⟩ | ⟨ho, hz, e⟩ | ⟨ho, hz, e⟩ <;>
      cases q <;> cases e
    · exact ⟨ho, hz, rfl⟩
    · exact ⟨ho, hz, rfl⟩
  · rintro ⟨ho, hz, rfl⟩
    cases q <;> simp [decode, ho, hz, pulseOpcode, pulseCommand]

/-- A negative duration is rejected before any register is touched. -/
theorem exec_pulseCommand_of_neg (q : PulseKind) {d : Int} {s : State} (hp : s.ph = .idle)
    (hd : d < 0) : exec (pulseCommand q d) s = .next (reject .eDuration s) := by
  rw [exec_of_idle hp]
  cases q with
  | mark => exact congrArg _ (if_pos hd)
  | space => exact congrArg _ (if_pos hd)

/-- Any other duration starts its pulse. -/
theorem exec_pulseCommand_of_nonneg (q : PulseKind) {d : Int} {s : State} (hp : s.ph = .idle)
    (hd : 0 ≤ d) : exec (pulseCommand q d) s = .next (startPulse q d.toNat s) := by
  have hd' : ¬ d < 0 := Int.not_lt.mpr hd
  rw [exec_of_idle hp]
  cases q with
  | mark => exact congrArg _ (if_neg hd')
  | space => exact congrArg _ (if_neg hd')

/-- `exec` answers a next state only in IDLE. -/
theorem ph_of_exec_eq_next {i : Instr} {s t : State} (h : exec i s = .next t) : s.ph = .idle :=
  (exec_eq_next_iff.mp h).1

/-- Settles O13: the pulse command of kind mark; its run is the delay with CONN 1, then the DONE
step. -/
theorem markCommand : Obligations.MarkCommand :=
  ⟨decode_eq_pulseCommand_iff .mark, fun _ _ _ => ph_of_exec_eq_next, fun d s hp =>
    ⟨exec_pulseCommand_of_neg .mark hp, fun hd =>
      ⟨exec_pulseCommand_of_nonneg .mark hp hd, fun hr =>
        exists_runsTo_idle_of_done (s := startPulse .mark d.toNat s) hr rfl⟩⟩⟩

/-- Settles O14: the pulse command of kind space; its run is the delay with CONN 0, then the DONE
step. -/
theorem spaceCommand : Obligations.SpaceCommand := by
  refine ⟨decode_eq_pulseCommand_iff .space, fun _ _ _ => ph_of_exec_eq_next, fun d s hp =>
    ⟨exec_pulseCommand_of_neg .space hp, fun hd =>
      ⟨exec_pulseCommand_of_nonneg .space hp hd, fun hr => ?_⟩⟩⟩
  obtain ⟨u, hrun, hph, herr, hresp, hconn, htrace, hduring, hnow, -⟩ :=
    exists_runsTo_idle_of_done (s := startPulse .space d.toNat s) hr rfl
  exact ⟨u, hrun, hph, herr, hresp, hconn, htrace, hduring, hnow⟩

end Sys2Proof.Machine
end

section
/-! SUPPORT. SEND on an idle block, the left-justified value bit by bit, and the bits of the value
that no frame carries, with the settled statements of 42_protocol_encoder.md: the left-justify, the
checks of SEND and the ignored bits. -/

namespace Sys2Proof.Machine

/-! ### SEND on an idle block (42_protocol_encoder.md R152, R158) -/

section
variable {p : BitVec 4} {v : Work} {n : Int} {r : Bool} {s : State}

/-- The check of the protocol comes first, whatever the count. -/
theorem acceptStep_send_of_protocol_ne (h : p ≠ jvc) :
    acceptStep (.send p v n r) s = reject .eProtocol s := by
  rcases sendStep_cases p v n r s with ⟨-, e⟩ | ⟨hp, -⟩ | ⟨hp, -⟩
  · exact e
  · exact absurd hp h
  · exact absurd hp h

/-- The check of the bit count comes second. -/
theorem acceptStep_send_of_bitCount_out (h : n < 0 ∨ 32 < n) :
    acceptStep (.send jvc v n r) s = reject .eBitcount s := by
  rcases sendStep_cases jvc v n r s with ⟨hp, -⟩ | ⟨-, -, e⟩ | ⟨-, h0, h32, -⟩
  · exact absurd rfl hp
  · exact e
  · omega

/-- A SEND that passes both checks is accepted. -/
theorem acceptStep_send_of_bitCount_in (h0 : 0 ≤ n) (h32 : n ≤ 32) :
    acceptStep (.send jvc v n r) s = acceptSend v n.toNat r s := by
  rcases sendStep_cases jvc v n r s with ⟨hp, -⟩ | ⟨-, hout, -⟩ | ⟨-, -, -, e⟩
  · exact absurd rfl hp
  · omega
  · exact e

end

/-- A frame starts in a busy phase. -/
theorem firstPhase_ne_idle (r : Bool) (c : BitVec 6) : firstPhase r c ≠ .idle := by
  rcases firstPhase_cases r c with e | ⟨e, -⟩ | e <;> simp [e]

/-- Settles O17: the checks of `sendRejection` in their order, and an accepted SEND is busy and has
given no response. -/
theorem sendChecksInOrder : Obligations.SendChecksInOrder := by
  intro p v n rep s hp
  rw [exec_of_idle hp]
  refine ⟨fun hne => ?_, ?_, ?_⟩
  · rw [acceptStep_send_of_protocol_ne hne]
    rfl
  · rintro rfl hout
    exact congrArg _ (acceptStep_send_of_bitCount_out hout.symm)
  · rintro rfl h0 h32
    exact ⟨_, congrArg _ (acceptStep_send_of_bitCount_in h0 h32), rfl, firstPhase_ne_idle _ _⟩

/-! ### The left-justified value (42_protocol_encoder.md R153) -/

/-- The left shift as arithmetic modulo 2^32 (00_scope.md R16). -/
theorem toNat_shl32 (v : Work) (k : Nat) : (shl32 v k).toNat = v.toNat * 2 ^ k % 2 ^ 32 := by
  rw [shl32, BitVec.toNat_shiftLeft, Nat.shiftLeft_eq]

/-- The left shift bit by bit. -/
theorem getLsbD_shl32 (v : Work) (k i : Nat) :
    (shl32 v k).getLsbD i = (decide (i < 32) && !decide (i < k) && v.getLsbD (i - k)) :=
  BitVec.getLsbD_shiftLeft v k

/-- The bits below the bit count land at the top, the highest of them in bit 31. -/
theorem getLsbD_shl32_leftJustified (v : Work) {n k : Nat} (hn : n ≤ 32) (hk : k < n) :
    (shl32 v (32 - n)).getLsbD (31 - k) = v.getLsbD (n - 1 - k) := by
  have hin : 31 - k < 32 := by omega
  have hge : ¬ 31 - k < 32 - n := by omega
  have hpos : 31 - k - (32 - n) = n - 1 - k := by omega
  rw [getLsbD_shl32, hpos]
  simp only [hin, hge, decide_true, decide_false, Bool.not_false, Bool.true_and]

/-- The bits that the shift brings in are 0. -/
theorem getLsbD_shl32_of_lt (v : Work) {k i : Nat} (hi : i < k) :
    (shl32 v k).getLsbD i = false := by
  simp [getLsbD_shl32, hi]

/-- Settles O16: an accepted SEND holds the value shifted left, and the shift's lemmas say where
each bit lands. -/
theorem sendLeftJustifies : Obligations.SendLeftJustifies := by
  intro v n rep s hp hn
  have hexec : exec (.send 1 v n rep) s = .next (acceptSend v n rep s) :=
    (exec_of_idle hp).trans
      (congrArg _ (acceptStep_send_of_bitCount_in n.cast_nonneg (Int.ofNat_le.mpr hn)))
  refine ⟨_, hexec, toNat_shl32 v _, fun k hk => getLsbD_shl32_leftJustified v hn hk,
    fun k hk => getLsbD_shl32_of_lt v hk, ?_, ?_⟩
  · rintro rfl
    exact BitVec.shiftLeft_zero v
  · rintro rfl
    exact ⟨BitVec.shiftLeft_eq_zero le_rfl, rfl, rfl⟩

/-! ### The bits that no frame carries (42_protocol_encoder.md R163) -/

/-- `value mod 2^n`. -/
def lowBits (v : Work) (n : Nat) : Work := BitVec.ofNat 32 (v.toNat % 2 ^ n)

/-- The bits of the value below the bit count, and no other. -/
theorem getLsbD_lowBits (v : Work) (n i : Nat) :
    (lowBits v n).getLsbD i = (decide (i < n) && v.getLsbD i) := by
  rw [lowBits, BitVec.getLsbD_ofNat, Nat.testBit_mod_two_pow, BitVec.testBit_toNat]
  by_cases hi : i < 32
  · simp only [hi, decide_true, Bool.true_and]
  · simp [BitVec.getLsbD_of_ge v i (Nat.le_of_not_lt hi)]

/-- A frame's body reads only the bits below the bit count. -/
theorem frameBody_lowBits (v : Work) (n : Nat) : frameBody (lowBits v n) n = frameBody v n := by
  refine List.flatMap_congr fun i hi => ?_
  have hlt : n - 1 - i < n := by
    have := List.mem_range.mp hi
    omega
  simp [getLsbD_lowBits, hlt]

/-- The left-justify shifts the other bits out. -/
theorem shl32_lowBits (v : Work) (n : Nat) : shl32 (lowBits v n) (32 - n) = shl32 v (32 - n) := by
  apply BitVec.eq_of_getLsbD_eq
  intro i hi
  by_cases hlow : i < 32 - n
  · rw [getLsbD_shl32_of_lt _ hlow, getLsbD_shl32_of_lt _ hlow]
  · have hlt : i - (32 - n) < n := by omega
    simp [getLsbD_shl32, getLsbD_lowBits, hlt]

/-- The encoder holds the same after a value and its low bits. -/
theorem loadEncoder_lowBits (v : Work) (n : Nat) (s : State) :
    loadEncoder (lowBits v n) n s = loadEncoder v n s := by
  simp only [loadEncoder, shl32_lowBits]

/-- The big step of SEND reads its value through the encoder alone. -/
theorem bigSend_lowBits (p : BitVec 4) (v : Work) (n : Int) (r : Bool) (s : State) :
    bigSend p (lowBits v n.toNat) n r s = bigSend p v n r s := by
  simp only [bigSend, loadEncoder_lowBits]

/-- Settles O27: frame and big step are those of the value's low bits, and the rule's two values
have the same 16. -/
theorem frameIgnoresHighBits : Obligations.FrameIgnoresHighBits := by
  refine ⟨fun v n rep _ => ?_, fun s => ?_⟩
  · change frame v n rep = frame (lowBits v n) n rep
    rw [frame, frame, frameBody_lowBits]
  · have hlow : lowBits 0xFFFF0001 16 = 0x0001 := by decide
    have hbig : bigSend 1 0x0001 16 false s = bigSend 1 0xFFFF0001 16 false s :=
      hlow ▸ bigSend_lowBits 1 0xFFFF0001 16 false s
    exact congrArg State.trace hbig.symm

end Sys2Proof.Machine
end

section
/-! SUPPORT. The responses that acceptance and a busy step give, and the settled statements of
60_exceptions.md: what a rejection leaves alone, and where E_DURATION comes from. -/

namespace Sys2Proof.Machine

/-! ### The responses of an acceptance (60_exceptions.md R181, R187) -/

/-- An acceptance that is no rejection gives no response yet, or OK. -/
theorem acceptStep_reject_or_responses (i : Instr) (s : State) :
    (∃ r, (r = .eDuration → ∃ d < 0, i = .mark d ∨ i = .space d) ∧ acceptStep i s = reject r s) ∨
    (acceptStep i s).responses = s.responses ∨
    (acceptStep i s).responses = s.responses ++ [.ok] := by
  rcases acceptStep_cases i s with ⟨r, -, hdur, e⟩ | ⟨f, -, -, e⟩ | ⟨d, -, -, e⟩ | ⟨d, -, -, e⟩ |
    ⟨v, n, r, -, -, -, e⟩
  · exact .inl ⟨r, hdur, e⟩
  · exact .inr (.inr (congrArg State.responses e))
  all_goals exact .inr (.inl (by simp [e, mark_eq, space_eq, acceptSend]))

/-- An acceptance that gives a response other than OK is the rejection with that response, and
E_DURATION is that of a negative MARK or SPACE. -/
theorem acceptStep_of_error_response {i : Instr} {s : State} {r : Response}
    (h : (acceptStep i s).responses = s.responses ++ [r]) (hr : r ≠ .ok) :
    (r = .eDuration → ∃ d < 0, i = .mark d ∨ i = .space d) ∧ acceptStep i s = reject r s := by
  rcases acceptStep_reject_or_responses i s with ⟨q, hdur, e⟩ | e | e
  · have hq : (reject q s).responses = s.responses ++ [r] := e ▸ h
    obtain rfl : q = r := List.singleton_inj.mp (List.append_cancel_left hq)
    exact ⟨hdur, e⟩
  · exact absurd (List.self_eq_append_right.mp (e.symm.trans h)) (List.cons_ne_nil r [])
  · exact absurd (List.singleton_inj.mp (List.append_cancel_left (e.symm.trans h))).symm hr

/-- A word that ends in a response other than OK is rejected with it, whether it is illegal or a
command. -/
theorem accept_of_error_response {w : CmdWord} {s t : State} {r : Response}
    (ha : accept w s = .next t) (h : t.responses = s.responses ++ [r]) (hr : r ≠ .ok) :
    t = reject r s := by
  unfold accept at ha
  cases hd : decode w with
  | none =>
    rw [hd] at ha
    obtain ⟨-, rfl⟩ := whenReady_eq_next.mp ha
    exact congrArg (reject · s) (List.singleton_inj.mp (List.append_cancel_left h))
  | some i =>
    rw [hd] at ha
    obtain ⟨-, rfl⟩ := exec_eq_next_iff.mp ha
    exact (acceptStep_of_error_response h hr).2

/-- A rejection does not move the pin. -/
theorem pin_reject (r : Response) (s : State) : pin (reject r s) = pin s := rfl

/-- Settles O18: an error response comes from a rejection alone, and that writes ERR and the
responses. -/
theorem rejectionWritesErrOnly : Obligations.RejectionWritesErrOnly := by
  refine ⟨fun i s t r he h hr => ?_, fun w s t r ha hs h hr => ?_⟩
  · obtain ⟨-, rfl⟩ := exec_eq_next_iff.mp he
    obtain ⟨-, e⟩ := acceptStep_of_error_response h hr
    rw [e]
    exact ⟨reject_eq r s, pin_reject r s, counterTick_congr rfl rfl rfl rfl rfl⟩
  · exact accept_of_error_response (s := sampled s) (step_of_accepts ha ▸ hs) h hr

/-! ### The responses of a running command (60_exceptions.md R186) -/

/-- A control step gives no response, or OK. -/
theorem controlStep_responses (s : State) :
    (controlStep s).responses = s.responses ∨
    (controlStep s).responses = s.responses ++ [.ok] := by
  rcases controlStep_cases s with ⟨-, e⟩ | ⟨d, x, e, -, -⟩ | ⟨d, x, e, -, -⟩ | ⟨-, e⟩ | ⟨-, e⟩
  case inr.inr.inr.inr => exact .inr (congrArg State.responses e)
  all_goals exact .inl (by simp [e, mark_eq, space_eq])

/-- A tick gives no response. -/
theorem tick_responses (s : State) : (tick s).responses = s.responses := by
  rw [tick_eq]

/-- A step of a busy block is a reset, a control step or a tick of its delay. -/
theorem step_cases_of_busy {s : State} (hp : s.ph ≠ .idle) :
    step s = .next (takeReset (popRst s)) ∨ step s = .next (controlStep (popRst s)) ∨
    step s = .next (tick (popRst s)) := by
  rcases step_cases s with ⟨-, e⟩ | ⟨-, -, -, e⟩ | ⟨-, -, -, e⟩ | ⟨-, hi, -⟩ | ⟨-, hi, -⟩ |
    ⟨w, ⟨-, hi, -⟩, -⟩ | ⟨w, i, ⟨-, hi, -⟩, -⟩
  · exact .inl e
  · exact .inr (.inl e)
  · exact .inr (.inr e)
  all_goals exact absurd hi hp

/-- Settles O19: MARK and SPACE check the sign first; of acceptances only theirs can end in
E_DURATION; and a busy step answers at most OK. -/
theorem negativeDurationRejected : Obligations.NegativeDurationRejected := by
  refine ⟨fun d s hp hd => ?_, fun i s t he h => ?_, fun s t hp hs => ?_⟩
  · exact ⟨exec_pulseCommand_of_neg .mark hp hd, exec_pulseCommand_of_neg .space hp hd⟩
  · obtain ⟨-, rfl⟩ := exec_eq_next_iff.mp he
    obtain ⟨hdur, -⟩ := acceptStep_of_error_response h (by decide)
    exact hdur rfl
  · rcases step_cases_of_busy hp with e | e | e <;>
      obtain rfl := Host.Outcome.next.inj (e.symm.trans hs)
    · exact .inl rfl
    · exact controlStep_responses (popRst s)
    · exact .inl (tick_responses (popRst s))

end Sys2Proof.Machine
end

section
/-! SUPPORT. The fetch of a presented word, and the settled statement of 70_reset_and_hazards.md: the
state after reset. -/

namespace Sys2Proof.Machine

/-! ### A word given to the block (41_pulse_sequencer.md R138 (c)) -/

/-- The block accepts a 64-bit word it is given. -/
theorem accepts_withFetchWord (s : State) (w : CmdWord) :
    Accepts (s.withFetchWord 64 w.toNat) w := by
  refine ⟨rfl, rfl, ?_⟩
  have hw : BitVec.ofNat 64 (w.toNat % 2 ^ 64) = w := by
    rw [BitVec.toNat_mod_cancel, BitVec.ofNat_toNat, BitVec.setWidth_eq]
  exact congrArg (fun v => some (HostMove.present v)) hw

/-- Once its inputs are past, nothing of the given word is left in an idle block without delay. -/
theorem sampled_withFetchWord {s : State} (hp : s.ph = .idle) (hd : s.dly = 0) (nbits w : Nat) :
    sampled (s.withFetchWord nbits w) = s := by
  simp [State.withFetchWord, presenting, sampled_eq, ← hp, ← hd]

/-- An idle block without delay runs at once the command it is given. -/
theorem step_withFetchWord {s : State} (hp : s.ph = .idle) (hd : s.dly = 0) {w : CmdWord} {i : Instr}
    (hi : decode w = some i) : step (s.withFetchWord 64 w.toNat) = exec i s := by
  calc step (s.withFetchWord 64 w.toNat)
      = accept w (sampled (s.withFetchWord 64 w.toNat)) :=
        step_of_accepts (accepts_withFetchWord s w)
    _ = accept w s := by rw [sampled_withFetchWord hp hd]
    _ = exec i s := by simp only [accept, hi]

/-! ### The state after reset (70_reset_and_hazards.md R211) -/

/-- The timer does not run after reset. -/
theorem not_timerRuns_reset : ¬ TimerRuns State.reset := fun ⟨hm, _, _⟩ => nomatch hm

/-- The carrier is not configured after reset (10_state.md R44). -/
theorem not_carrierConfigured_reset : ¬ CarrierConfigured State.reset :=
  fun ⟨hd, _, _, _, _⟩ => nomatch hd

/-- Settles O39: the registers as reset sets them, no carrier because the timer does not run, and a
given word run at once because reset leaves the block idle without delay. -/
theorem stateAfterReset : Obligations.StateAfterReset :=
  ⟨rfl, rfl, rfl, pin_of_input rfl, rfl, rfl, carrier_of_not_runs not_timerRuns_reset,
    not_carrierConfigured_reset, fun _ _ => step_withFetchWord rfl rfl⟩

end Sys2Proof.Machine
end

section
/-! SUPPORT. The encoder against the decoder, with the settled statements of 30_encoding.md: the
inverse both ways, the words as numbers, and words of each format. -/

namespace Sys2Proof

/-- Format S as a number (30_encoding.md R95): each field shifted to its own place. -/
theorem encodeSend_eq_ofNat (p : BitVec 4) (v : Work) (n : Int) (r : Bool) :
    encodeSend p v n r = BitVec.ofNat 64 (0x2 <<< 60 ||| p.toNat <<< 56 ||| r.toNat <<< 48 |||
      (n % 2 ^ 8).toNat <<< 40 ||| v.toNat) := by
  have hword : (encodeSend p v n r).toNat = 0x2 <<< 60 ||| p.toNat <<< 56 ||| r.toNat <<< 48 |||
      (n % 2 ^ 8).toNat <<< 40 ||| v.toNat := by
    simp only [encodeSend, BitVec.toNat_append, BitVec.toNat_ofNat, BitVec.toNat_ofBool,
      BitVec.toNat_ofInt, Nat.shiftLeft_or_distrib, ← Nat.shiftLeft_add]
    simp
  rw [← hword, BitVec.ofNat_toNat, BitVec.setWidth_eq]

/-- The decoder reads an encoded command back, when its operands are in range. -/
theorem decode_encode {i : Instr} (h : i.wellFormed = true) : decode (encode i) = some i := by
  cases i with
  | cfg f => simp [decode, encode, toInt_ofInt_of_inSigned (by decide) h]
  | send p v n r =>
    have hr : (encodeSend p v n r)[48] = r := getLsbD_encodeSend_repeat p v n r
    simp [decode, encode, toInt_ofInt_of_inSigned (by decide) h, hr]
  | mark d => simp [decode, encode, toInt_ofInt_of_inSigned (by decide) h]
  | space d => simp [decode, encode, toInt_ofInt_of_inSigned (by decide) h]

/-- The encoder gives a legal word back. -/
theorem encode_of_decode {w : CmdWord} {i : Instr} (h : decode w = some i) : encode i = w := by
  rcases decode_cases h with ⟨ho, hz, rfl⟩ | ⟨ho, ha, hb, rfl⟩ | ⟨ho, hz, rfl⟩ | ⟨ho, hz, rfl⟩
  · exact encodeWide_of_bits w 0x1#4 ho hz
  · exact encodeSend_of_bits w ho ha hb
  · exact encodeWide_of_bits w 0x3#4 ho hz
  · exact encodeWide_of_bits w 0x4#4 ho hz

/-- Settles O1: both inverses field by field, and each format's word as the sum of its fields. -/
theorem encodeDecodeInverse : Obligations.EncodeDecodeInverse :=
  ⟨fun _ => decode_encode, fun _ _ => encode_of_decode, encodeWide_eq_ofNat 0x1#4,
    encodeSend_eq_ofNat, encodeWide_eq_ofNat 0x3#4, encodeWide_eq_ofNat 0x4#4⟩

/-- Settles O5: the decoder evaluated on each word. -/
theorem decodesWordsOfEachFormat : Obligations.DecodesWordsOfEachFormat := by
  unfold Obligations.DecodesWordsOfEachFormat
  decide

end Sys2Proof
end

section
/-! SUPPORT. What a step leaves alone: the timer, the time and the host's side of the state under
every command and every control step but CFG and the tick, and the acceptances field by field. With
the settled frames of the four commands (10_state.md R48). -/

namespace Sys2Proof.Machine

/-! ### Steps by their case (41_pulse_sequencer.md R138) -/

/-- A step with `rst` high is the reset. -/
theorem step_of_rst {s : State} (hr : rstNow s = true) : step s = .next (takeReset (popRst s)) :=
  if_pos hr

/-- A step of a busy block with `rst` low. -/
theorem step_of_busy {s : State} (hr : rstNow s = false) (hp : s.ph ≠ .idle) :
    step s = .next (busyStep (popRst s)) := by
  simp [step, hr, blockStep, hp]

/-- Case (a): once the delay has run, a busy block makes its control step. -/
theorem busyStep_of_dly_eq_zero {s : State} (hd : s.dly = 0) : busyStep s = controlStep s :=
  if_pos hd

/-- Case (b): a running delay makes a tick. -/
theorem busyStep_of_dly_pos {s : State} (hd : 0 < s.dly) : busyStep s = tick s :=
  if_neg (Nat.ne_of_gt hd)

/-- Case (c): the host of an idle block lets a tick pass. -/
theorem step_of_idle_tick {s : State} (hr : rstNow s = false) (hp : s.ph = .idle)
    (hh : s.host = [] ∨ s.host.head? = some .letTick) : step s = .next (tick (sampled s)) := by
  cases hm : s.host with
  | nil => simp [step, hr, blockStep, hp, hostStep, hm, sampled_eq, popRst]
  | cons m ms =>
    obtain rfl : m = .letTick := by simpa [hm] using hh
    simp [step, hr, blockStep, hp, hostStep, hm, sampled]

/-- Case (c): the host of an idle block reads STATUS. -/
theorem step_of_idle_read {s : State} (hr : rstNow s = false) (hp : s.ph = .idle)
    (hh : s.host.head? = some .readStatus) : step s = .next (readStatus (sampled s)) := by
  obtain ⟨ms, hm⟩ := List.head?_eq_some_iff.mp hh
  simp [step, hr, blockStep, hp, hostStep, hm, sampled]

/-- Case (c): an accepted word that decodes runs its command. -/
theorem step_of_accepts_decode {s : State} {w : CmdWord} {i : Instr} (ha : Accepts s w)
    (hd : decode w = some i) : step s = exec i (sampled s) := by
  rw [step_of_accepts ha, accept, hd]

/-- A tick does not see the inputs still to come. -/
theorem tick_with_inputs (s : State) (moves : List HostMove) (levels : List Bool) :
    tick { s with host := moves, rstIn := levels } =
      { tick s with host := moves, rstIn := levels } := by
  obtain ⟨hc, hd⟩ := counterTick_congr (s := s) (t := { s with host := moves, rstIn := levels })
    rfl rfl rfl rfl rfl
  rw [tick_eq, tick_eq, hc, hd]
  rfl

/-- A tick after the reset input is sampled. -/
theorem tick_popRst (s : State) :
    tick (popRst s) = { tick s with host := s.host, rstIn := s.rstIn.tail } :=
  tick_with_inputs s s.host s.rstIn.tail

/-- A tick after both inputs are sampled. -/
theorem tick_sampled (s : State) :
    tick (sampled s) = { tick s with host := s.host.tail, rstIn := s.rstIn.tail } :=
  tick_with_inputs s s.host.tail s.rstIn.tail

/-- Settles O7: case (a) in a busy block, and the tick of cases (b) and (c) field by field. -/
theorem stepOutsideAcceptance : Obligations.StepOutsideAcceptance := by
  refine fun s hr => ⟨fun hp hd => ?_, fun h => ?_⟩
  · rw [step_of_busy hr hp, busyStep_of_dly_eq_zero (s := popRst s) hd]
  · have hdly : (if 0 < s.dly then s.dly - 1 else s.dly) = s.dly - 1 := by split <;> omega
    rw [hdly]
    rcases h with ⟨hp, hd⟩ | ⟨hp, hh⟩
    · rw [step_of_busy hr hp, busyStep_of_dly_pos (s := popRst s) hd, tick_popRst, tick_eq,
        if_neg hp]
    · rw [step_of_idle_tick hr hp hh, tick_sampled, tick_eq, if_pos hp]

/-- Settles O8: each case of the step relation answers a next state. -/
theorem stepAlwaysHasNextState : Obligations.StepAlwaysHasNextState := by
  intro s
  rcases step_cases s with ⟨-, e⟩ | ⟨-, -, -, e⟩ | ⟨-, -, -, e⟩ | ⟨-, -, -, e⟩ | ⟨-, -, -, e⟩ |
    ⟨_, -, -, e⟩ | ⟨_, _, -, -, e⟩
  all_goals exact ⟨_, e⟩

/-- Settles O6: case (c) of the step relation for a word that decodes. -/
theorem stepRunsPresentedCommand : Obligations.StepRunsPresentedCommand := fun _ _ _ ha hd =>
  ⟨step_of_accepts_decode ha hd, wellFormed_of_decode hd⟩

/-- Settles O9: `exec` is `whenReady`, which asks for IDLE. -/
theorem execNeedsIdle : Obligations.ExecNeedsIdle := by
  refine fun i s => ⟨?_, fun hp => ⟨_, exec_of_idle hp⟩⟩
  rw [exec_eq, whenReady_eq_refused, and_iff_left rfl]

/-! ### The control step by phase (42_protocol_encoder.md R158) -/

/-- The action of a phase, apart from the state's own. -/
def controlIn : Phase → State → State
  | .idle, s => s
  | .hdrM, s => setPhase .hdrS (mark hdrMarkUs s)
  | .hdrS, s => setPhase (afterHdr s.bcnt) (space hdrSpaceUs s)
  | .bitM, s => setPhase .bitS (mark bitMarkUs s)
  | .bitS, s => setPhase (afterHdr (s.bcnt - 1)) (nextBit (space (bitSpaceUs (topBit s)) s))
  | .trlM, s => setPhase .trlS (mark bitMarkUs s)
  | .trlS, s => setPhase .done (space 0 s)
  | .done, s => finish s

/-- A control step is the action of the phase PH holds. -/
theorem controlStep_eq (s : State) : controlStep s = controlIn s.ph s := by
  unfold controlStep
  cases s.ph <;> rfl

/-- A control step in a known phase. -/
theorem controlStep_of_ph {s : State} {x : Phase} (h : s.ph = x) :
    controlStep s = controlIn x s := by
  rw [controlStep_eq, h]

/-- Settles O22: the action of each phase. -/
theorem controlStepsOfPhaseMachine : Obligations.ControlStepsOfPhaseMachine := by
  intro s hr hd us m sp after
  have hafter (c : BitVec 6) : afterHdr c = after c := afterHdr_eq c
  have hmark (d : Nat) (x : Phase) : setPhase x (mark d (popRst s)) = m d x := by
    rw [mark_eq]
    rfl
  have hspace (d : Nat) (x : Phase) : setPhase x (space d (popRst s)) = sp d x := by
    rw [space_eq]
    rfl
  have hstep {x : Phase} (hx : s.ph = x) (hne : x ≠ .idle) :
      step s = .next (controlIn x (popRst s)) := by
    rw [step_of_busy hr (hx ▸ hne), busyStep_of_dly_eq_zero (s := popRst s) hd,
      controlStep_of_ph (s := popRst s) hx]
  refine ⟨fun hx => ?_, fun hx => ?_, fun hx => ?_, fun hx => ?_, fun hx => ?_, fun hx => ?_⟩
  · rw [hstep hx nofun, controlIn, hmark, hdrMarkUs]
  · rw [hstep hx nofun, controlIn, hspace, hafter, hdrSpaceUs, popRst_bcnt]
  · rw [hstep hx nofun, controlIn, hmark, bitMarkUs]
  · rw [hstep hx nofun, ← hafter, controlIn, space_eq]
    rfl
  · rw [hstep hx nofun, controlIn, hmark, bitMarkUs]
  · rw [hstep hx nofun, controlIn, hspace]

/-! ### What every command but CFG leaves alone (10_state.md R48) -/

/-- `t` has the configuration, the counter and the time of `s`. -/
structure KeepsTimer (s t : State) : Prop where
  config : SameConfig s t
  cnt : t.cnt = s.cnt
  dir : t.dir = s.dir
  wave : t.wave = s.wave
  now : t.now = s.now
  draws : t.draws = s.draws

/-- `t` has the host's moves, the reset input and the STATUS reads of `s`. -/
structure KeepsHost (s t : State) : Prop where
  statusReads : t.statusReads = s.statusReads
  host : t.host = s.host
  rstIn : t.rstIn = s.rstIn

/-- Writes of the registers of the sequencer, the encoder and ERR alone leave the rest alone. -/
theorem keeps_of_eq {s t : State} (h : t = { s with
      conn := t.conn, trace := t.trace, dly := t.dly, shr := t.shr, bcnt := t.bcnt, ph := t.ph
      err := t.err, responses := t.responses }) : KeepsTimer s t ∧ KeepsHost s t := by
  rw [h]
  exact ⟨⟨⟨rfl, rfl, rfl, rfl, rfl, rfl, rfl⟩, rfl, rfl, rfl, rfl, rfl⟩, rfl, rfl, rfl⟩

/-- Inputs and STATUS reads are no part of the timer. -/
theorem keepsTimer_with_inputs (s : State) (reads : List (BitVec 6)) (moves : List HostMove)
    (levels : List Bool) :
    KeepsTimer s { s with statusReads := reads, host := moves, rstIn := levels } :=
  ⟨⟨rfl, rfl, rfl, rfl, rfl, rfl, rfl⟩, rfl, rfl, rfl, rfl, rfl⟩

/-- A control step writes no register of the timer and nothing of the host's. -/
theorem controlStep_keeps (s : State) :
    KeepsTimer s (controlStep s) ∧ KeepsHost s (controlStep s) := by
  rcases controlStep_cases s with ⟨-, e⟩ | ⟨_, _, e, -⟩ | ⟨_, _, e, -⟩ | ⟨-, e⟩ | ⟨-, e⟩
  all_goals rw [e]; exact keeps_of_eq rfl

/-- An acceptance that is not of a CFG that passed its checks writes no register of the timer. -/
theorem acceptStep_keeps_or_cfg (i : Instr) (s : State) :
    (KeepsTimer s (acceptStep i s) ∧ KeepsHost s (acceptStep i s)) ∨
    ∃ f, i = .cfg f ∧ ¬ CfgRejected s.params f ∧
      acceptStep i s = respond .ok (drawCounter (configure (topCount s.params f) s)) := by
  rcases acceptStep_cases i s with ⟨_, -, -, e⟩ | hcfg | ⟨_, -, -, e⟩ | ⟨_, -, -, e⟩ |
    ⟨_, _, _, -, -, -, e⟩
  case inr.inl => exact .inr hcfg
  all_goals rw [e]; exact .inl (keeps_of_eq rfl)

/-- No acceptance writes anything of the host's. -/
theorem acceptStep_keepsHost (i : Instr) (s : State) : KeepsHost s (acceptStep i s) := by
  rcases acceptStep_keeps_or_cfg i s with ⟨-, h⟩ | ⟨_, -, -, e⟩
  · exact h
  · rw [e]
    exact ⟨rfl, rfl, rfl⟩

/-- Settles O20: a rejected CFG writes ERR and the response, an accepted one the Carrier Generator's
registers beside them. -/
theorem cfgFrame : Obligations.CfgFrame := by
  intro f s t h
  obtain ⟨-, rfl⟩ := exec_eq_next_iff.mp h
  rcases cfgStep_cases f s with ⟨-, e⟩ | ⟨-, e⟩
  all_goals
    rw [acceptStep, e]
    exact ⟨rfl, rfl, rfl, rfl, rfl, rfl, rfl, rfl, rfl, rfl, rfl⟩

/-- What SEND does not write: a pulse's registers. -/
theorem sendStep_frame (p : BitVec 4) (v : Work) (n : Int) (r : Bool) (s : State) :
    (sendStep p v n r s).conn = s.conn ∧ (sendStep p v n r s).dly = s.dly ∧
      (sendStep p v n r s).trace = s.trace := by
  rcases sendStep_cases p v n r s with ⟨-, e⟩ | ⟨-, -, e⟩ | ⟨-, -, -, e⟩
  all_goals rw [e]; exact ⟨rfl, rfl, rfl⟩

/-- What MARK does not write: the encoder's registers. -/
theorem markStep_frame (d : Int) (s : State) :
    (markStep d s).shr = s.shr ∧ (markStep d s).bcnt = s.bcnt := by
  rcases markStep_cases d s with ⟨-, e⟩ | ⟨-, e⟩
  all_goals rw [e]; exact ⟨rfl, rfl⟩

/-- What SPACE does not write: the encoder's registers. -/
theorem spaceStep_frame (d : Int) (s : State) :
    (spaceStep d s).shr = s.shr ∧ (spaceStep d s).bcnt = s.bcnt := by
  rcases spaceStep_cases d s with ⟨-, e⟩ | ⟨-, e⟩
  all_goals rw [e]; exact ⟨rfl, rfl⟩

/-- Settles O21: no command but CFG writes the timer, and each command's own frame. -/
theorem pulseCommandFrame : Obligations.PulseCommandFrame := by
  intro i s t hi h
  obtain ⟨-, rfl⟩ := exec_eq_next_iff.mp h
  rcases acceptStep_keeps_or_cfg i s with ⟨ht, hh⟩ | ⟨f, hf, -⟩
  · refine ⟨ht.config, ht.cnt, ht.dir, ht.wave, ht.now, hh.statusReads, hh.host, hh.rstIn,
      ht.draws, ?_⟩
    cases i with
    | cfg f => trivial
    | send p v n r => exact sendStep_frame p v n r s
    | mark d => exact markStep_frame d s
    | space d => exact spaceStep_frame d s
  · exact absurd hf (hi f)

/-! ### CFG (40_carrier_generator.md R110) -/

/-- An accepted CFG leaves the carrier configured: its checks are the bounds of R43 (e). -/
theorem carrierConfigured_of_not_rejected {s : State} {f : Int} (h : ¬ CfgRejected s.params f) :
    CarrierConfigured (respond .ok (drawCounter (configure (topCount s.params f) s))) := by
  obtain ⟨-, hmin, hmax⟩ := not_or.mp h |>.imp_right not_or.mp
  exact ⟨rfl, rfl, rfl, rfl, Nat.not_lt.mp hmin, Nat.not_lt.mp hmax, rfl⟩

/-- Settles O12: CFG computes from the operand and the parameters, which it does not write. -/
theorem cfgIsIdempotent : Obligations.CfgIsIdempotent := by
  intro f s t h
  obtain ⟨hp, rfl⟩ := exec_eq_next_iff.mp h
  by_cases hrej : CfgRejected s.params f
  · have hrej' : CfgRejected (reject .eFreq s).params f := hrej
    rw [acceptStep_cfg_of_rejected hrej, exec_of_idle (s := reject .eFreq s) hp,
      acceptStep_cfg_of_rejected hrej']
    exact ⟨_, rfl, ⟨rfl, rfl, rfl, rfl, rfl, rfl, rfl⟩, rfl, rfl, fun he => nomatch he⟩
  · rw [acceptStep_cfg_of_not_rejected hrej]
    refine ⟨_, exec_of_idle hp, ?_⟩
    rw [acceptStep_cfg_of_not_rejected]
    · exact ⟨⟨rfl, rfl, rfl, rfl, rfl, rfl, rfl⟩, rfl, rfl,
        fun _ => ⟨rfl, carrierConfigured_of_not_rejected hrej⟩⟩
    · exact hrej

end Sys2Proof.Machine
end

section
/-! SUPPORT. The legal counts and the invariants of 10_state.md R43: every step keeps them, and the
state after reset has them; with the settled statement about the counter's phase. -/

namespace Sys2Proof.Machine

/-! ### Legal counts (10_state.md R43 (a)) -/

/-- A legal count by direction. -/
theorem counterLegal_iff (s : State) : CounterLegal s ↔
    (s.dir = .up ∧ (s.cnt < s.top ∨ (s.top = 0 ∧ s.cnt = 0))) ∨
    (s.dir = .down ∧ 1 ≤ s.cnt ∧ s.cnt ≤ s.top) := by
  cases hd : s.dir <;> simp [CounterLegal, hd]

/-- Whether a count is legal is a matter of the counter, its direction and TOP. -/
theorem CounterLegal.congr {s t : State} (h : CounterLegal s) (hc : t.cnt = s.cnt)
    (hd : t.dir = s.dir) (ht : t.top = s.top) : CounterLegal t := by
  rw [counterLegal_iff] at h ⊢
  rwa [hc, hd, ht]

/-- The counter rule keeps a count legal, whether the timer runs or not. -/
theorem counterLegal_counterTick {s : State} (h : CounterLegal s) :
    CounterLegal (counterTick s) := by
  rcases counterTick_cases s with ⟨-, e⟩ | ⟨hr, hd, hc, e⟩ | ⟨hr, hd, hc, e⟩ | ⟨hr, hd, hc, e⟩ |
    ⟨hr, hd, hc, e⟩
  · rwa [e]
  all_goals
    have ht : 1 ≤ s.top := hr.top_pos
    rw [counterLegal_iff] at h
    rw [e, counterLegal_iff]
    simp only [hd, reduceCtorEq, false_and, true_and, false_or, or_false] at h ⊢
    omega

/-- A drawn count is legal for the period it is drawn for. -/
theorem counterLegal_drawCounter {s : State} (ht : 1 ≤ s.top) : CounterLegal (drawCounter s) := by
  obtain ⟨c, d, hcd, e⟩ := drawCounter_legal ht
  rw [e, counterLegal_iff]
  exact hcd.imp (fun ⟨hd, hc⟩ => ⟨hd, .inl hc⟩) id

/-- A tick keeps a count legal. -/
theorem counterLegal_tick {s : State} (h : CounterLegal s) : CounterLegal (tick s) :=
  (counterLegal_counterTick h).congr (by rw [tick_eq]) (by rw [tick_eq])
    (by rw [tick_eq, counterTick_top])

/-- The phase at which a state is put is the phase it has. -/
theorem phase_atPhase {s : State} {phi : Nat} (h : phi < 2 * s.top) :
    phase (atPhase phi s) = phi := by
  by_cases hup : phi < s.top
  · simp [phase, atPhase, counterAt, hup]
  · simp only [phase, atPhase, counterAt, hup, if_false, setCounter]
    omega

/-- The phase decides the carrier of a running timer with a legal count. -/
theorem carrier_eq_highPhase {s : State} (hr : TimerRuns s) (hl : CounterLegal s)
    (hc : s.cmp < s.top) : carrier s = highPhase s.top s.cmp (phase s) := by
  rw [← carrier_atPhase hr hc, atPhase_phase hr.top_pos hl]

/-- After `k` ticks of a running timer its phase is `k` further, modulo 2*TOP. -/
theorem phase_counterTick_iterate {s : State} (hr : TimerRuns s) (hl : CounterLegal s) (k : Nat) :
    phase (counterTick^[k] s) = (phase s + k) % (2 * s.top) := by
  have ht : 1 ≤ s.top := hr.top_pos
  rw [counterTick_iterate hr hl, phase_atPhase (Nat.mod_lt _ (by omega))]

/-- Settles O33: the phase of a legal count, one tick of it, and the high phases. -/
theorem phaseAdvancesAndDecidesCarrier : Obligations.PhaseAdvancesAndDecidesCarrier :=
  fun _ hr hl hc => ⟨phase_lt hr.top_pos hl, counterLegal_counterTick hl,
    phase_counterTick_iterate hr hl 1, by rw [carrier_eq_highPhase hr hl hc, highPhase_eq_true]⟩

/-! ### The invariants (10_state.md R43) -/

/-- Codes 6 to 15 are never produced (60_exceptions.md R181). -/
theorem response_code_le (r : Response) : r.code ≤ 5 := by
  cases r <;> decide

/-- A step that leaves the timer alone keeps the invariants when it keeps those of the delay, the
encoder and ERR. -/
theorem Inv.of_keepsTimer {s t : State} (h : Inv s) (hk : KeepsTimer s t) (hb : t.bcnt ≤ 32)
    (hi : t.ph = .idle → t.dly = 0) (hbits : t.ph = .bitM ∨ t.ph = .bitS → 1 ≤ t.bcnt)
    (he : t.err ≤ 5) : Inv t := by
  obtain ⟨hp, hdir, hlvl, hmode, hpresc, htop, hcmp⟩ := hk.config
  exact {
    counter := h.counter.congr hk.cnt hk.dir htop
    bcnt := hb
    idle := hi
    pinLvl := hlvl.trans h.pinLvl
    tmode := by rw [hmode, hpresc]; exact h.tmode
    presc := by rw [hpresc, hdir]; exact h.presc
    period := by rw [hmode, PeriodLegal, hp, htop, hcmp]; exact h.period
    bits := hbits
    err := he }

/-- A response keeps the invariants. -/
theorem inv_respond {s : State} (h : Inv s) (r : Response) : Inv (respond r s) :=
  h.of_keepsTimer (keeps_of_eq rfl).1 h.bcnt h.idle h.bits (response_code_le r)

/-- A pulse keeps the invariants when a busy phase follows, and a bit phase only with a bit left. -/
theorem Inv.of_pulse {s t : State} (h : Inv s) (hk : KeepsTimer s t) (hb : t.bcnt = s.bcnt)
    (he : t.err = s.err) (hp : t.ph ≠ .idle) (hbits : t.ph = .bitM ∨ t.ph = .bitS → 1 ≤ s.bcnt) :
    Inv t :=
  h.of_keepsTimer hk (hb ▸ h.bcnt) (fun hi => absurd hi hp) (hb ▸ hbits) (he ▸ h.err)

/-- Zero is the one count below 1. -/
theorem one_le_bcnt_iff (c : BitVec 6) : 1 ≤ c ↔ c ≠ 0 := by
  revert c
  decide

/-- After the header or a bit, a bit phase comes only with a bit left (R158). -/
theorem one_le_of_afterHdr {c : BitVec 6} (h : afterHdr c = .bitM ∨ afterHdr c = .bitS) :
    1 ≤ c := by
  rw [one_le_bcnt_iff]
  rintro rfl
  exact absurd h (by decide)

/-- The count that SEND loads is in range (R43 (b)). -/
theorem ofNat_bcnt_le {n : Nat} (hn : n ≤ 32) : BitVec.ofNat 6 n ≤ 32 := by
  rw [BitVec.le_def, BitVec.toNat_ofNat]
  exact (Nat.mod_le n _).trans hn

/-- One bit less is in range while a bit is left. -/
theorem sub_one_bcnt_le {c : BitVec 6} (h1 : 1 ≤ c) (hc : c ≤ 32) : c - 1 ≤ 32 := by
  bv_omega

/-- A control step of a delay that has run keeps the invariants. -/
theorem inv_controlStep {s : State} (h : Inv s) (hd : s.dly = 0) : Inv (controlStep s) := by
  have hk := (controlStep_keeps s).1
  rcases controlStep_cases s with ⟨-, e⟩ | ⟨d, x, e, -, hx⟩ | ⟨d, x, e, -, hx⟩ | ⟨hp, e⟩ | ⟨-, e⟩
  all_goals rw [e] at hk ⊢
  · exact h
  · rcases hx with rfl | ⟨hp, rfl⟩ | rfl
    · exact h.of_pulse hk rfl rfl nofun (by simp)
    · exact h.of_pulse hk rfl rfl nofun fun _ => h.bits (.inl hp)
    · exact h.of_pulse hk rfl rfl nofun (by simp)
  · rcases hx with rfl | rfl
    · exact h.of_pulse hk rfl rfl (afterHdr_ne_idle _) one_le_of_afterHdr
    · exact h.of_pulse hk rfl rfl nofun (by simp)
  · exact h.of_keepsTimer hk (sub_one_bcnt_le (h.bits (.inr hp)) h.bcnt)
      (fun hi => absurd hi (afterHdr_ne_idle _)) one_le_of_afterHdr h.err
  · exact h.of_keepsTimer hk h.bcnt (fun _ => hd) (by simp [finish]) (response_code_le .ok)

/-- The acceptance of SEND keeps the invariants. -/
theorem inv_acceptSend {s : State} (h : Inv s) (v : Work) {n : Nat} (hn : n ≤ 32) (r : Bool) :
    Inv (acceptSend v n r s) := by
  refine h.of_keepsTimer (keeps_of_eq rfl).1 (ofNat_bcnt_le hn)
    (fun hi => absurd hi (firstPhase_ne_idle _ _)) (fun hx => ?_) h.err
  change firstPhase r _ = .bitM ∨ firstPhase r _ = .bitS at hx
  rcases firstPhase_cases r (BitVec.ofNat 6 n) with e | ⟨-, hc⟩ | e
  · simp [e] at hx
  · exact (one_le_bcnt_iff _).mpr hc
  · simp [e] at hx

/-- A configured carrier with a legal count meets the invariants of the timer (R43 (a), (d), (e)),
whatever they were before. -/
theorem Inv.of_carrierConfigured {t : State} (hl : CounterLegal t) (hc : CarrierConfigured t)
    (hb : t.bcnt ≤ 32) (hi : t.ph = .idle → t.dly = 0)
    (hbits : t.ph = .bitM ∨ t.ph = .bitS → 1 ≤ t.bcnt) (he : t.err ≤ 5) : Inv t := by
  obtain ⟨hdir, hlvl, hmode, hpresc, hper⟩ := hc
  exact {
    counter := hl
    bcnt := hb
    idle := hi
    pinLvl := hlvl
    tmode := by simp [hmode, hpresc]
    presc := by simp [hpresc, hdir]
    period := fun _ => hper
    bits := hbits
    err := he }

/-- The acceptance of CFG makes the invariants of the timer hold and keeps the others. -/
theorem inv_configure {s : State} (h : Inv s) {f : Int} (hf : ¬ CfgRejected s.params f) :
    Inv (respond .ok (drawCounter (configure (topCount s.params f) s))) := by
  have hc := carrierConfigured_of_not_rejected hf
  have ⟨_, _, _, _, ht, _⟩ := hc
  have hl : CounterLegal (drawCounter (configure (topCount s.params f) s)) :=
    counterLegal_drawCounter ht
  exact .of_carrierConfigured (hl.congr rfl rfl rfl) hc h.bcnt h.idle h.bits (response_code_le .ok)

/-- An acceptance keeps the invariants. -/
theorem inv_acceptStep {s : State} (h : Inv s) (i : Instr) : Inv (acceptStep i s) := by
  rcases acceptStep_cases i s with ⟨r, -, -, e⟩ | ⟨f, -, hf, e⟩ | ⟨d, -, -, e⟩ | ⟨d, -, -, e⟩ |
    ⟨v, n, r, -, -, hn, e⟩
  all_goals rw [e]
  · exact inv_respond h r
  · exact inv_configure h hf
  · exact h.of_pulse (keeps_of_eq rfl).1 rfl rfl nofun (by simp)
  · exact h.of_pulse (keeps_of_eq rfl).1 rfl rfl nofun (by simp)
  · exact inv_acceptSend h v (Int.toNat_le.mpr hn) r

/-- A tick keeps the invariants: it writes the counter by its rule and counts the delay down. -/
theorem inv_tick {s : State} (h : Inv s) : Inv (tick s) where
  counter := counterLegal_tick h.counter
  bcnt := by simpa [tick_eq] using h.bcnt
  idle := by
    simp only [tick_eq]
    intro hp
    rw [h.idle hp]
  pinLvl := by simpa [tick_eq] using h.pinLvl
  tmode := by simpa [tick_eq] using h.tmode
  presc := by simpa [tick_eq] using h.presc
  period := by simpa [tick_eq] using h.period
  bits := by simpa [tick_eq] using h.bits
  err := by simpa [tick_eq] using h.err

/-- The invariants do not speak of the inputs still to come and of the STATUS reads. -/
theorem inv_with_inputs {s : State} (h : Inv s) (reads : List (BitVec 6)) (moves : List HostMove)
    (levels : List Bool) :
    Inv { s with statusReads := reads, host := moves, rstIn := levels } :=
  h.of_keepsTimer (keepsTimer_with_inputs s reads moves levels) h.bcnt h.idle h.bits h.err

/-- The registers as reset sets them have the invariants. -/
theorem inv_takeReset (s : State) : Inv (takeReset s) where
  counter := .inr ⟨rfl, rfl⟩
  bcnt := ofNat_bcnt_le (Nat.zero_le 32)
  idle _ := rfl
  pinLvl := rfl
  tmode := by simp
  presc := by simp
  period := nofun
  bits := by simp
  err := response_code_le .ok

/-- Settles O37: each case of the step relation keeps the invariants. -/
theorem stepKeepsInvariant : Obligations.StepKeepsInvariant := by
  intro s t h hs
  rcases step_cases s with ⟨-, e⟩ | ⟨-, -, hd, e⟩ | ⟨-, -, -, e⟩ | ⟨-, -, -, e⟩ | ⟨-, -, -, e⟩ |
    ⟨w, -, -, e⟩ | ⟨w, i, -, -, e⟩
  all_goals obtain rfl := Host.Outcome.next.inj (e.symm.trans hs)
  · exact inv_takeReset _
  · exact inv_controlStep (inv_with_inputs h _ _ _) hd
  · exact inv_tick (inv_with_inputs h _ _ _)
  · exact inv_tick (inv_with_inputs h _ _ _)
  · exact inv_with_inputs h _ _ _
  · exact inv_respond (inv_with_inputs h _ _ _) .eOpcode
  · exact inv_acceptStep (inv_with_inputs h _ _ _) i

/-- Settles O38: what a reset step leaves of the state after reset is the state after reset. -/
theorem resetHasInvariant : Obligations.ResetHasInvariant := fun p =>
  inv_takeReset { State.reset with params := p }

end Sys2Proof.Machine
end

section
/-! SUPPORT. The settled rules of the whole machine: what a step does to the configuration, the
time, the trace, the responses and the host's side, and what a step does not read (10_state.md,
70_reset_and_hazards.md). -/

namespace Sys2Proof.Machine

/-! ### What a step does to the timer (10_state.md R48) -/

theorem KeepsTimer.trans {s t u : State} (h : KeepsTimer s t) (k : KeepsTimer t u) :
    KeepsTimer s u := by
  obtain ⟨h1, h2, h3, h4, h5, h6, h7⟩ := h.config
  obtain ⟨k1, k2, k3, k4, k5, k6, k7⟩ := k.config
  exact ⟨⟨k1.trans h1, k2.trans h2, k3.trans h3, k4.trans h4, k5.trans h5, k6.trans h6,
    k7.trans h7⟩, k.cnt.trans h.cnt, k.dir.trans h.dir, k.wave.trans h.wave, k.now.trans h.now,
    k.draws.trans h.draws⟩

/-- With `rst` low a step leaves the timer and the time alone, or is a tick, or is the acceptance of
a CFG that passes its checks. -/
theorem step_timer_cases {s t : State} (hs : step s = .next t) (hr : rstNow s = false) :
    KeepsTimer s t ∨
    (∃ moves levels, t = { tick s with host := moves, rstIn := levels }) ∨
    ∃ w f, Accepts s w ∧ decode w = some (.cfg f) ∧ ¬ CfgRejected s.params f ∧
      t = respond .ok (drawCounter (configure (topCount s.params f) (sampled s))) := by
  rcases step_cases s with ⟨hr', -⟩ | ⟨-, -, -, e⟩ | ⟨-, -, -, e⟩ | ⟨-, -, -, e⟩ | ⟨-, -, -, e⟩ |
    ⟨w, -, -, e⟩ | ⟨w, i, ha, hw, e⟩
  · simp [hr] at hr'
  all_goals obtain rfl := Host.Outcome.next.inj (e.symm.trans hs)
  · exact .inl ((keepsTimer_with_inputs s _ _ _).trans (controlStep_keeps (popRst s)).1)
  · exact .inr (.inl ⟨_, _, tick_popRst s⟩)
  · exact .inr (.inl ⟨_, _, tick_sampled s⟩)
  · exact .inl (keepsTimer_with_inputs s _ _ _)
  · exact .inl ((keepsTimer_with_inputs s _ _ _).trans (keeps_of_eq (s := sampled s) rfl).1)
  · rcases acceptStep_keeps_or_cfg i (sampled s) with ⟨hk, -⟩ | ⟨f, rfl, hf, e'⟩
    · exact .inl ((keepsTimer_with_inputs s _ _ _).trans hk)
    · exact .inr (.inr ⟨w, f, ha, hw, hf, e'⟩)

/-- A tick writes no configuration register. -/
theorem sameConfig_tick (s : State) : SameConfig s (tick s) := by
  rw [tick_eq]
  exact ⟨rfl, rfl, rfl, rfl, rfl, rfl, rfl⟩

/-- Settles O42: of the steps that do not leave the timer alone, a tick writes no configuration
register, and CFG writes all of them. -/
theorem onlyCfgWritesConfiguration : Obligations.OnlyCfgWritesConfiguration := by
  intro s t hs hr
  rcases step_timer_cases hs hr with hk | ⟨_, _, rfl⟩ | ⟨w, f, ha, hw, hf, rfl⟩
  · exact .inl hk.config
  · exact .inl (sameConfig_tick s)
  · exact .inr ⟨w, f, ha, hw, hf, rfl, rfl, rfl, rfl, rfl, rfl, rfl⟩

/-- Whether the carrier is configured is a matter of the configuration registers. -/
theorem carrierConfigured_congr {s t : State} (h : SameConfig s t) :
    CarrierConfigured t ↔ CarrierConfigured s := by
  obtain ⟨hp, hdir, hlvl, hmode, hpresc, htop, hcmp⟩ := h
  simp only [CarrierConfigured, PeriodLegal, hp, hdir, hlvl, hmode, hpresc, htop, hcmp]

/-- The step that accepts a CFG which passes its checks configures the carrier. -/
theorem carrierConfigured_of_accepts_cfg {s t : State} {w : CmdWord} {f : Int}
    (hs : step s = .next t) (ha : Accepts s w) (hw : decode w = some (.cfg f))
    (hf : ¬ CfgRejected s.params f) : CarrierConfigured t := by
  rw [step_of_accepts_decode ha hw] at hs
  obtain ⟨-, rfl⟩ := exec_eq_next_iff.mp hs
  rw [acceptStep_cfg_of_not_rejected (s := sampled s) hf]
  exact carrierConfigured_of_not_rejected (s := sampled s) hf

/-- Settles O41: reset makes the pin an input, and any other step keeps the configuration or accepts
a CFG. -/
theorem configuredExactlyByCfg : Obligations.ConfiguredExactlyByCfg := by
  intro s t hs
  cases hr : rstNow s with
  | true =>
    obtain rfl := Host.Outcome.next.inj ((step_of_rst hr).symm.trans hs)
    simp [CarrierConfigured]
  | false =>
    rw [eq_self, true_and]
    rcases onlyCfgWritesConfiguration s t hs hr with hc | ⟨w, f, ha, hw, hf, -⟩
    · rw [carrierConfigured_congr hc]
      refine ⟨.inl, ?_⟩
      rintro (h | ⟨w, f, ha, hw, hf⟩)
      · exact h
      · exact (carrierConfigured_congr hc).mp (carrierConfigured_of_accepts_cfg hs ha hw hf)
    · exact iff_of_true (carrierConfigured_of_accepts_cfg hs ha hw hf) (.inr ⟨w, f, ha, hw, hf⟩)

/-- Settles O49: neither reset nor any other step writes the parameters. -/
theorem stepKeepsParameters : Obligations.StepKeepsParameters := by
  intro s t hs
  cases hr : rstNow s with
  | true =>
    obtain rfl := Host.Outcome.next.inj ((step_of_rst hr).symm.trans hs)
    rfl
  | false =>
    rcases onlyCfgWritesConfiguration s t hs hr with ⟨hp, -⟩ | ⟨_, _, -, -, -, -, -, -, -, -, -, hp⟩
    · exact hp
    · exact hp

/-- Settles O44: the steps that do not leave the time alone are the ticks, and CFG's draw. -/
theorem timePassesOnlyInTicks : Obligations.TimePassesOnlyInTicks := by
  intro s t hs hr
  rcases step_timer_cases hs hr with hk | ⟨_, _, rfl⟩ | ⟨w, f, ha, hw, hf, rfl⟩
  · exact .inl ⟨hk.now, hk.wave, .inl ⟨hk.cnt, hk.dir⟩⟩
  · exact .inr (by simp [tick_eq])
  · exact .inl ⟨rfl, rfl, .inr ⟨w, f, ha, hw, hf⟩⟩

/-- Settles O50: a tick records the pin, which an input leaves undriven, and no other step records
anything. -/
theorem unconfiguredPinStaysUndriven : Obligations.UnconfiguredPinStaysUndriven := by
  intro s t hi hs
  cases hr : rstNow s with
  | true =>
    obtain rfl := Host.Outcome.next.inj ((step_of_rst hr).symm.trans hs)
    exact ⟨.inl rfl, .inl rfl⟩
  | false =>
    rcases step_timer_cases hs hr with hk | ⟨_, _, rfl⟩ | ⟨w, f, ha, hw, -, rfl⟩
    · obtain ⟨-, hdir, -⟩ := hk.config
      exact ⟨.inl hk.wave, .inl (hdir.trans hi)⟩
    · simp [tick_eq, pin_of_input hi, hi]
    · exact ⟨.inl rfl, .inr ⟨w, f, ha, hw⟩⟩

/-- Settles O40: the reset step, register by register. -/
theorem resetFromAnyState : Obligations.ResetFromAnyState := fun s hr =>
  ⟨takeReset (popRst s), step_of_rst hr, rfl, rfl, rfl, rfl, rfl, rfl, rfl, rfl, rfl, rfl, rfl,
    rfl, rfl, rfl, rfl, rfl⟩

/-! ### TRACE and CONN (10_state.md R45, R48) -/

/-- One pulse: its record, its connection and its delay (41_pulse_sequencer.md R133, R134). -/
def RecordsPulse (s t : State) : Prop :=
  ∃ q d, t.trace = s.trace ++ [⟨q, d⟩] ∧ t.conn = pulseConn q ∧ t.dly = delayTicks s.params d

/-- A control step records one pulse, or leaves TRACE, CONN and the delay alone. -/
theorem controlStep_records (s : State) : RecordsPulse s (controlStep s) ∨
    (controlStep s).trace = s.trace ∧ (controlStep s).conn = s.conn ∧
      (controlStep s).dly = s.dly := by
  rcases controlStep_cases s with ⟨-, e⟩ | ⟨d, _, e, -⟩ | ⟨d, _, e, -⟩ | ⟨-, e⟩ | ⟨-, e⟩
  all_goals rw [e]
  · exact .inr ⟨rfl, rfl, rfl⟩
  · exact .inl ⟨.mark, d, rfl, rfl, rfl⟩
  · exact .inl ⟨.space, d, rfl, rfl, rfl⟩
  · rw [space_eq]
    exact .inl ⟨.space, _, rfl, rfl, rfl⟩
  · exact .inr ⟨rfl, rfl, rfl⟩

/-- An acceptance records one pulse, or leaves TRACE and CONN alone, or is of a CFG that passes its
checks, which clears CONN. -/
theorem acceptStep_records (i : Instr) (s : State) : RecordsPulse s (acceptStep i s) ∨
    (acceptStep i s).trace = s.trace ∧ ((acceptStep i s).conn = s.conn ∨
      (acceptStep i s).conn = false ∧ ∃ f, i = .cfg f ∧ ¬ CfgRejected s.params f) := by
  rcases acceptStep_cases i s with ⟨_, -, -, e⟩ | ⟨f, hi, hf, e⟩ | ⟨d, -, -, e⟩ | ⟨d, -, -, e⟩ |
    ⟨_, _, _, -, -, -, e⟩
  all_goals rw [e]
  · exact .inr ⟨rfl, .inl rfl⟩
  · exact .inr ⟨rfl, .inr ⟨rfl, f, hi, hf⟩⟩
  · exact .inl ⟨.mark, d.toNat, rfl, rfl, rfl⟩
  · exact .inl ⟨.space, d.toNat, rfl, rfl, rfl⟩
  · exact .inr ⟨rfl, .inl rfl⟩

/-- A step records one pulse, or leaves TRACE alone and clears CONN at most by a CFG or reset. -/
theorem step_records {s t : State} (hs : step s = .next t) : RecordsPulse s t ∨
    t.trace = s.trace ∧ (t.conn = s.conn ∨ t.conn = false ∧ (rstNow s = true ∨
      ∃ w f, Accepts s w ∧ decode w = some (.cfg f) ∧ ¬ CfgRejected s.params f)) := by
  rcases step_cases s with ⟨hr, e⟩ | ⟨-, -, -, e⟩ | ⟨-, -, -, e⟩ | ⟨-, -, -, e⟩ | ⟨-, -, -, e⟩ |
    ⟨w, -, -, e⟩ | ⟨w, i, ha, hw, e⟩
  all_goals obtain rfl := Host.Outcome.next.inj (e.symm.trans hs)
  · exact .inr ⟨rfl, .inr ⟨rfl, .inl hr⟩⟩
  · exact (controlStep_records (popRst s)).imp id fun ⟨ht, hc, _⟩ => ⟨ht, .inl hc⟩
  · exact .inr (by simp [tick_eq])
  · exact .inr (by simp [tick_eq])
  · exact .inr ⟨rfl, .inl rfl⟩
  · exact .inr ⟨rfl, .inl rfl⟩
  · refine (acceptStep_records i (sampled s)).imp id fun ⟨ht, hc⟩ => ⟨ht, hc.imp id ?_⟩
    rintro ⟨hf, f, rfl, hrej⟩
    exact ⟨hf, .inr ⟨w, f, ha, hw, hrej⟩⟩

/-- Settles O43: a step that records a pulse records one of the two kinds. -/
theorem pulsesAreRecorded : Obligations.PulsesAreRecorded := by
  intro s t hs
  rcases step_records hs with ⟨q, d, h⟩ | h
  · cases q with
    | mark => exact .inr (.inl ⟨d, h⟩)
    | space => exact .inr (.inr ⟨d, h⟩)
  · exact .inl h

/-! ### Responses and ERR (30_encoding.md R82, 60_exceptions.md R188) -/

/-- A busy block's control step gives no response and stays busy, or it is the DONE step. -/
theorem controlStep_silent_or_done {s : State} (hp : s.ph ≠ .idle) :
    ((controlStep s).responses = s.responses ∧ (controlStep s).err = s.err ∧
      (controlStep s).ph ≠ .idle) ∨ (s.ph = .done ∧ controlStep s = finish s) := by
  rcases controlStep_cases s with ⟨hi, -⟩ | ⟨d, x, e, -, hx⟩ | ⟨d, x, e, -, hx⟩ | ⟨-, e⟩ | hdone
  · exact absurd hi hp
  · rw [e]
    refine .inl ⟨rfl, rfl, ?_⟩
    rcases hx with rfl | ⟨-, rfl⟩ | rfl <;> exact nofun
  · rw [e]
    refine .inl ⟨rfl, rfl, ?_⟩
    rcases hx with rfl | rfl
    · exact afterHdr_ne_idle _
    · exact nofun
  · rw [e, space_eq]
    exact .inl ⟨rfl, rfl, afterHdr_ne_idle _⟩
  · exact .inr hdone

/-- An acceptance gives no response, or one, latched in ERR, with the phase as it was. -/
theorem acceptStep_silent_or_response (i : Instr) (s : State) :
    ((acceptStep i s).responses = s.responses ∧ (acceptStep i s).err = s.err) ∨
    ∃ r, (acceptStep i s).responses = s.responses ++ [r] ∧ (acceptStep i s).err = r.code ∧
      (acceptStep i s).ph = s.ph := by
  rcases acceptStep_cases i s with ⟨r, -, -, e⟩ | ⟨_, -, -, e⟩ | ⟨_, -, -, e⟩ | ⟨_, -, -, e⟩ |
    ⟨_, _, _, -, -, -, e⟩
  all_goals rw [e]
  · exact .inr ⟨r, rfl, rfl, rfl⟩
  · exact .inr ⟨.ok, rfl, rfl, rfl⟩
  all_goals exact .inl ⟨rfl, rfl⟩

/-- Settles O45: responses come from the DONE step, and from an acceptance, which leaves an idle
block idle when it responds. -/
theorem responsesAndErrAgree : Obligations.ResponsesAndErrAgree := by
  intro s t hs hr
  rcases step_cases s with ⟨hr', -⟩ | ⟨-, hp, hd, e⟩ | ⟨-, hp, -, e⟩ | ⟨-, hi, -, e⟩ |
    ⟨-, hi, -, e⟩ | ⟨w, ha, -, e⟩ | ⟨w, i, ha, -, e⟩
  · simp [hr] at hr'
  all_goals obtain rfl := Host.Outcome.next.inj (e.symm.trans hs)
  · rcases controlStep_silent_or_done (s := popRst s) hp with ⟨h1, h2, h3⟩ | ⟨hdone, e'⟩
    · exact .inl ⟨h1, h2, fun _ => h3⟩
    · rw [e']
      exact .inr ⟨.ok, rfl, rfl, rfl, .inl ⟨rfl, hdone, hd⟩⟩
  · exact .inl (by simp [tick_eq])
  · exact .inl (by simp [tick_eq, hi])
  · exact .inl ⟨rfl, rfl, fun hp => absurd hi hp⟩
  · have ⟨_, hi, _⟩ := ha
    exact .inr ⟨.eOpcode, rfl, rfl, hi, .inr ⟨w, ha⟩⟩
  · have ⟨_, hi, _⟩ := ha
    rcases acceptStep_silent_or_response i (sampled s) with ⟨h1, h2⟩ | ⟨r, h1, h2, h3⟩
    · exact .inl ⟨h1, h2, fun hp => absurd hi hp⟩
    · exact .inr ⟨r, h1, h2, h3.trans hi, .inr ⟨w, ha⟩⟩

/-! ### The host's side: STATUS and a busy block (10_state.md R36, 30_encoding.md R82) -/

theorem status_bit4_iff (s : State) : s.status.getLsbD 4 = true ↔ s.ph ≠ .idle := by
  rw [status_bit4, State.busy, decide_eq_true_iff]

/-- A value read from an idle block has BUSY 0. -/
theorem status_bit4_of_idle {s : State} (h : s.ph = .idle) : s.status.getLsbD 4 = false := by
  rw [Bool.eq_false_iff, ne_eq, status_bit4_iff, not_not, h]

/-- A tick leaves the host's side alone. -/
theorem tick_keepsHost (s : State) : KeepsHost s (tick s) := by
  rw [tick_eq]
  exact ⟨rfl, rfl, rfl⟩

/-- A step adds at most the value of STATUS in an idle block to the record of reads. -/
theorem step_statusReads {s t : State} (hs : step s = .next t) : t.statusReads = s.statusReads ∨
    s.ph = .idle ∧ t.statusReads = s.statusReads ++ [s.status] := by
  rcases step_cases s with ⟨-, e⟩ | ⟨-, -, -, e⟩ | ⟨-, -, -, e⟩ | ⟨-, -, -, e⟩ | ⟨-, hi, -, e⟩ |
    ⟨w, -, -, e⟩ | ⟨w, i, -, -, e⟩
  all_goals obtain rfl := Host.Outcome.next.inj (e.symm.trans hs)
  · exact .inl rfl
  · exact .inl (controlStep_keeps (popRst s)).2.statusReads
  · exact .inl (tick_keepsHost (popRst s)).statusReads
  · exact .inl (tick_keepsHost (sampled s)).statusReads
  · exact .inr ⟨hi, rfl⟩
  · exact .inl rfl
  · exact .inl (acceptStep_keepsHost i (sampled s)).statusReads

/-- Settles O46: the fields of STATUS, the step of a read, and that only an idle block is read. -/
theorem statusOutput : Obligations.StatusOutput := by
  refine fun s => ⟨status_bit5 s, status_bit4_iff s, status_err s, fun hr hp hh =>
    ⟨step_of_idle_read hr hp hh, status_bit4_of_idle hp⟩, fun t hs x hx => ?_⟩
  rcases step_statusReads hs with e | ⟨hp, e⟩
  · exact .inl (e ▸ hx)
  · rw [e, List.mem_append, List.mem_singleton] at hx
    refine hx.imp id ?_
    rintro rfl
    exact status_bit4_of_idle hp

/-- No phase's action sees the host's moves. -/
theorem controlIn_with_host (x : Phase) (s : State) (h : List HostMove) :
    controlIn x { s with host := h } = { controlIn x s with host := h } := by
  cases x <;> rfl

/-- A busy block's step does not see the host's moves. -/
theorem busyStep_with_host (s : State) (h : List HostMove) :
    busyStep { s with host := h } = { busyStep s with host := h } := by
  by_cases hd : s.dly = 0
  · rw [busyStep_of_dly_eq_zero (s := { s with host := h }) hd, busyStep_of_dly_eq_zero hd,
      controlStep_eq, controlStep_eq s]
    exact controlIn_with_host s.ph s h
  · have hd' : 0 < s.dly := Nat.pos_of_ne_zero hd
    have hk := tick_keepsHost s
    rw [busyStep_of_dly_pos (s := { s with host := h }) hd', busyStep_of_dly_pos hd',
      tick_with_inputs s h s.rstIn, ← hk.rstIn]

/-- A busy block's step leaves the host's side alone. -/
theorem busyStep_keepsHost (s : State) : KeepsHost s (busyStep s) := by
  unfold busyStep
  split
  · exact (controlStep_keeps s).2
  · exact tick_keepsHost s

/-- Settles O47: neither reset nor a busy step reads the host's moves or makes one. -/
theorem busyBlockIgnoresHost : Obligations.BusyBlockIgnoresHost := by
  intro s h hp
  cases hr : rstNow s with
  | true =>
    rw [step_of_rst (s := { s with host := h }) hr, step_of_rst hr]
    refine ⟨rfl, ?_⟩
    rintro t ⟨⟩
    rfl
  | false =>
    rw [step_of_busy (s := { s with host := h }) hr hp, step_of_busy hr hp]
    refine ⟨congrArg _ (busyStep_with_host (popRst s) h), ?_⟩
    rintro t ⟨⟩
    exact (busyStep_keepsHost (popRst s)).host

/-! ### The observations (10_state.md R45, R46) -/

/-- A control step does not read the observations. -/
theorem hardwareView_controlStep (s : State) :
    hardwareView (controlStep (hardwareView s)) = hardwareView (controlStep s) := by
  have haction (x : Phase) :
      hardwareView (controlIn x (hardwareView s)) = hardwareView (controlIn x s) := by
    cases x <;> rfl
  rw [controlStep_eq, controlStep_eq s]
  exact haction s.ph

/-- A tick does not read the observations. -/
theorem hardwareView_tick (s : State) :
    hardwareView (tick (hardwareView s)) = hardwareView (tick s) := by
  obtain ⟨hc, hd⟩ := counterTick_congr (s := s) (t := hardwareView s) rfl rfl rfl rfl rfl
  rw [tick_eq, tick_eq, hc, hd]
  rfl

/-- An acceptance does not read the observations. -/
theorem hardwareView_acceptStep (i : Instr) (s : State) :
    hardwareView (acceptStep i (hardwareView s)) = hardwareView (acceptStep i s) := by
  cases i with
  | cfg f =>
    by_cases hf : CfgRejected s.params f
    · rw [acceptStep_cfg_of_rejected hf, acceptStep_cfg_of_rejected (s := hardwareView s) hf]
      rfl
    · rw [acceptStep_cfg_of_not_rejected hf,
        acceptStep_cfg_of_not_rejected (s := hardwareView s) hf]
      rfl
  | send p v n r =>
    simp only [acceptStep, sendStep]
    cases sendRejection p n <;> rfl
  | mark d =>
    simp only [acceptStep, markStep]
    split_ifs <;> rfl
  | space d =>
    simp only [acceptStep, spaceStep]
    split_ifs <;> rfl

/-- What a step does to the hardware it does without the observations. -/
theorem mapResult_hardwareView_step (s : State) :
    mapResult hardwareView (step (hardwareView s)) = mapResult hardwareView (step s) := by
  rcases step_cases s with ⟨hr, e⟩ | ⟨hr, hp, hd, e⟩ | ⟨hr, hp, hd, e⟩ | ⟨hr, hi, hh, e⟩ |
    ⟨hr, hi, hh, e⟩ | ⟨w, ha, hw, e⟩ | ⟨w, i, ha, hw, e⟩
  all_goals rw [e]
  · rw [step_of_rst (s := hardwareView s) hr]
    rfl
  · rw [step_of_busy (s := hardwareView s) hr hp,
      busyStep_of_dly_eq_zero (s := popRst (hardwareView s)) hd]
    exact congrArg Host.Outcome.next (hardwareView_controlStep (popRst s))
  · rw [step_of_busy (s := hardwareView s) hr hp,
      busyStep_of_dly_pos (s := popRst (hardwareView s)) (Nat.pos_of_ne_zero hd)]
    exact congrArg Host.Outcome.next (hardwareView_tick (popRst s))
  · rw [step_of_idle_tick (s := hardwareView s) hr hi hh]
    exact congrArg Host.Outcome.next (hardwareView_tick (sampled s))
  · rw [step_of_idle_read (s := hardwareView s) hr hi hh]
    rfl
  · have ⟨_, hi, _⟩ := ha
    rw [step_of_accepts (s := hardwareView s) ha,
      accept_of_illegal (s := sampled (hardwareView s)) hi hw]
    rfl
  · have ⟨_, hi, _⟩ := ha
    rw [step_of_accepts_decode (s := hardwareView s) ha hw,
      exec_of_idle (s := sampled (hardwareView s)) hi]
    exact congrArg Host.Outcome.next (hardwareView_acceptStep i (sampled s))

/-- Settles O48: both steps are those of the one hardware. -/
theorem observationsAreNeverRead : Obligations.ObservationsAreNeverRead := by
  intro s s' h
  rw [← mapResult_hardwareView_step s, h, mapResult_hardwareView_step]

end Sys2Proof.Machine
end

section
/-! SUPPORT. The bits of a value as they leave the encoder, and the frame as its header, its data
bits and its trailer, with the settled statements of 42_protocol_encoder.md: the acceptance of SEND,
the bit order, the big step and the shape of a frame. -/

namespace Sys2Proof.Machine

/-! ### The acceptance of SEND (42_protocol_encoder.md R158) -/

/-- The count that SEND loads. -/
theorem toNat_ofNat_bcnt {n : Nat} (hn : n ≤ 32) : (BitVec.ofNat 6 n).toNat = n := by
  rw [BitVec.toNat_ofNat]
  omega

/-- A frame has a data bit when its count is not 0. -/
theorem afterHdr_ofNat {n : Nat} (hn : n ≤ 32) :
    afterHdr (BitVec.ofNat 6 n) = if 0 < n then .bitM else .trlM := by
  have hpos : 0 < BitVec.ofNat 6 n ↔ 0 < n := by
    rw [BitVec.lt_def, toNat_ofNat_bcnt hn]
    rfl
  simp only [afterHdr_eq, hpos]

/-- A SEND of protocol JVC with a count in range passes its checks. -/
theorem exec_send_of_le (v : Work) {n : Nat} (r : Bool) {s : State} (hp : s.ph = .idle)
    (hn : n ≤ 32) : exec (.send jvc v n r) s = .next (acceptSend v n r s) := by
  rw [exec_of_idle hp, acceptStep_send_of_bitCount_in n.cast_nonneg (Int.ofNat_le.mpr hn),
    Int.toNat_natCast]

/-- Settles O15: the encoder's loads, and the first phase by the flag and the count. -/
theorem sendAccepted : Obligations.SendAccepted := by
  intro v n rep s hp hn
  refine (exec_send_of_le v rep hp hn).trans ?_
  rw [acceptSend, firstPhase, afterHdr_ofNat hn]
  rfl

/-! ### The bit order (42_protocol_encoder.md R153, R156) -/

theorem shl32_shl32 (v : Work) (a b : Nat) : shl32 (shl32 v a) b = shl32 v (a + b) :=
  (BitVec.shiftLeft_add v a b).symm

/-- `i` bits on, the encoder has shifted and counted `i` times. -/
theorem nextBit_iterate (i : Nat) (s : State) :
    nextBit^[i] s = { s with shr := shl32 s.shr i, bcnt := s.bcnt - BitVec.ofNat 6 i } := by
  induction i with
  | zero => simp [shl32]
  | succ i ih =>
    have hcount : s.bcnt - BitVec.ofNat 6 i - 1 = s.bcnt - BitVec.ofNat 6 (i + 1) := by
      rw [BitVec.sub_sub, BitVec.ofNat_add]
      rfl
    rw [Function.iterate_succ_apply', ih, nextBit]
    simp only [shl32_shl32, hcount]

/-- The bit under test after `i` shifts of the left-justified value. -/
theorem topBit_nextBit_iterate (v : Work) {n i : Nat} (s : State) (hn : n ≤ 32) (hi : i < n) :
    topBit (nextBit^[i] (loadEncoder v n s)) = v.getLsbD (n - 1 - i) := by
  have hin : ¬ 31 < 32 - n + i := by omega
  have hpos : 31 - (32 - n + i) = n - 1 - i := by omega
  rw [topBit, nextBit_iterate, loadEncoder_shr, shl32_shl32, getLsbD_shl32, hpos]
  simp [hin]

/-- After all its bits the encoder holds 0. -/
theorem shl32_loadEncoder_shr (v : Work) {n : Nat} (s : State) (hn : n ≤ 32) :
    shl32 (loadEncoder v n s).shr n = 0 := by
  rw [loadEncoder_shr, shl32_shl32, Nat.sub_add_cancel hn]
  exact BitVec.shiftLeft_eq_zero le_rfl

/-- Settles O24: where the left-justify puts the bits, and where `i` shifts and `n` shifts do. -/
theorem bitsLeaveMostSignificantFirst : Obligations.BitsLeaveMostSignificantFirst := by
  refine fun v n s hn => ⟨fun k hk => getLsbD_shl32_leftJustified v hn hk,
    fun i hi => topBit_nextBit_iterate v s hn hi, ?_, ?_⟩
  · rw [nextBit_iterate]
    exact shl32_loadEncoder_shr v s hn
  · rw [nextBit_iterate, loadEncoder_bcnt]
    exact BitVec.sub_self _

/-! ### The big step of SEND (42_protocol_encoder.md R159) -/

/-- The loop's body: the two pulses of the bit under test, one shift and one count. -/
theorem bigBit_eq (s : State) : bigBit s = { s with
    conn := false, trace := s.trace ++ dataBit (topBit s), shr := shl32 s.shr 1
    bcnt := s.bcnt - 1 } := by
  simp [bigBit, nextBit, spacePulse, markPulse, emit, connect, disconnect, dataBit, topBit]

/-- The pulses of the bits that `k` shifts bring to the top of `w`. -/
def shiftedOut (k : Nat) (w : Work) : List Pulse :=
  (List.range k).flatMap fun i => dataBit ((shl32 w i).getLsbD 31)

/-- The bit at the top leaves first, the others after a shift. -/
theorem shiftedOut_succ (k : Nat) (w : Work) :
    shiftedOut (k + 1) w = dataBit (w.getLsbD 31) ++ shiftedOut k (shl32 w 1) := by
  have hzero : shl32 w 0 = w := BitVec.shiftLeft_zero w
  simp only [shiftedOut, List.range_succ_eq_map, List.flatMap_cons, List.flatMap_map, hzero,
    shl32_shl32, Nat.succ_eq_add_one, Nat.add_comm 1]

/-- The left-justified value leaves as the frame's body. -/
theorem shiftedOut_leftJustified (v : Work) {n : Nat} (s : State) (hn : n ≤ 32) :
    shiftedOut n (loadEncoder v n s).shr = frameBody v n := by
  refine List.flatMap_congr fun i hi => ?_
  have hbit := topBit_nextBit_iterate v s hn (List.mem_range.mp hi)
  rw [topBit, nextBit_iterate] at hbit
  rw [hbit]

/-- The loop sends the bits that its shifts bring to the top. -/
theorem bigBits_eq (k : Nat) (s : State) : ∃ c, bigBits k s = { s with
    conn := c, trace := s.trace ++ shiftedOut k s.shr, shr := shl32 s.shr k
    bcnt := s.bcnt - BitVec.ofNat 6 k } := by
  induction k generalizing s with
  | zero => exact ⟨s.conn, by simp [bigBits, shiftedOut, shl32]⟩
  | succ k ih =>
    obtain ⟨c, hc⟩ := ih (bigBit s)
    have hcount : s.bcnt - 1 - BitVec.ofNat 6 k = s.bcnt - BitVec.ofNat 6 (k + 1) := by
      rw [BitVec.sub_sub, Nat.add_comm k, BitVec.ofNat_add]
      rfl
    refine ⟨c, ?_⟩
    rw [bigBits, hc, bigBit_eq, shiftedOut_succ]
    simp only [shl32_shl32, hcount, Nat.add_comm 1, List.append_assoc, topBit]

/-- The header alone comes before the loop. -/
theorem bigHeader_eq (r : Bool) (s : State) : ∃ c, bigHeader r s = { s with
    conn := c, trace := s.trace ++ frameHeader r } := by
  cases r with
  | true => exact ⟨s.conn, by simp [bigHeader, frameHeader]⟩
  | false =>
    refine ⟨false, ?_⟩
    simp [bigHeader, frameHeader, spacePulse, markPulse, emit, connect, disconnect]

/-- The trailer ends with the output disconnected. -/
theorem bigTrailer_eq (s : State) : spacePulse 0 (markPulse bitMarkUs s) = { s with
    conn := false, trace := s.trace ++ frameTrailer } := by
  simp [frameTrailer, spacePulse, markPulse, emit, connect, disconnect]

/-- A SEND of protocol JVC with a count in range as one big step. -/
theorem bigSend_of_le (v : Work) {n : Nat} (r : Bool) (s : State) (hn : n ≤ 32) :
    bigSend jvc v n r s = respond .ok (spacePulse 0 (markPulse bitMarkUs
      (bigBits n (bigHeader r (loadEncoder v n s))))) := by
  obtain ⟨c, hc⟩ := bigHeader_eq r (loadEncoder v n s)
  have hcount : (bigHeader r (loadEncoder v n s)).bcnt.toNat = n := by
    rw [hc]
    exact toNat_ofNat_bcnt hn
  have hcheck : sendRejection jvc n = none := by
    simp only [sendRejection, ne_eq, not_true, if_false, ite_eq_right_iff, reduceCtorEq]
    omega
  rw [bigSend, hcheck]
  simp only [Int.toNat_natCast, hcount]

/-- The pulses of a frame and the state after it, field by field. -/
theorem bigSend_eq (v : Work) {n : Nat} (r : Bool) (s : State) (hn : n ≤ 32) :
    bigSend jvc v n r s = { s with
      shr := 0, bcnt := 0, conn := false, err := 0, trace := s.trace ++ frame v n r
      responses := s.responses ++ [.ok] } := by
  obtain ⟨c, hc⟩ := bigHeader_eq r (loadEncoder v n s)
  obtain ⟨c', hc'⟩ := bigBits_eq n (bigHeader r (loadEncoder v n s))
  have hshr := shl32_loadEncoder_shr v s hn
  have hbody := shiftedOut_leftJustified v s hn
  rw [bigSend_of_le v r s hn, bigTrailer_eq, hc', hc]
  simp only [hshr, hbody]
  simp [respond, loadEncoder, frame, Response.code]

/-! ### The frame as a list of data bits (42_protocol_encoder.md R155, R159) -/

/-- The bits of the value below `n`, the highest first. -/
def msbBits (v : Work) (n : Nat) : List Bool := (List.range n).map fun i => v.getLsbD (n - 1 - i)

/-- A frame's body is its bits' pulses. -/
theorem frameBody_eq_flatMap (v : Work) (n : Nat) :
    frameBody v n = (msbBits v n).flatMap dataBit := by
  rw [msbBits, List.flatMap_map]
  rfl

@[simp] theorem length_msbBits (v : Work) (n : Nat) : (msbBits v n).length = n := by
  simp [msbBits]

/-- The highest bit comes before the bits below it. -/
theorem msbBits_succ (v : Work) (n : Nat) : msbBits v (n + 1) = v.getLsbD n :: msbBits v n := by
  rw [msbBits, List.range_succ_eq_map, List.map_cons, List.map_map]
  refine congrArg₂ List.cons rfl (List.map_congr_left fun i _ => ?_)
  have hpos : n + 1 - 1 - (i + 1) = n - 1 - i := by omega
  exact congrArg v.getLsbD hpos

/-- Each bit is two pulses. -/
theorem length_flatMap_dataBit (bs : List Bool) : (bs.flatMap dataBit).length = 2 * bs.length := by
  induction bs with
  | nil => rfl
  | cons b bs ih =>
    rw [List.flatMap_cons, List.length_append, ih, List.length_cons, dataBit]
    simp only [List.length_cons, List.length_nil]
    omega

/-- The pulses of the `i`-th bit. -/
theorem getElem?_flatMap_dataBit (bs : List Bool) {i : Nat} {b : Bool} (h : bs[i]? = some b) :
    (bs.flatMap dataBit)[2 * i]? = some (.m bitMarkUs) ∧
      (bs.flatMap dataBit)[2 * i + 1]? = some (.s (bitSpaceUs b)) := by
  induction bs generalizing i with
  | nil => simp at h
  | cons a bs ih =>
    cases i with
    | zero =>
      obtain rfl : a = b := by simpa using h
      exact ⟨rfl, rfl⟩
    | succ i => exact ih h

/-- A frame's length (42_protocol_encoder.md R159). -/
theorem length_frame (v : Work) (n : Nat) (r : Bool) :
    (frame v n r).length = if r then 2 * (n + 1) else 2 * (n + 2) := by
  rw [frame, List.length_append, List.length_append, frameBody_eq_flatMap, length_flatMap_dataBit,
    length_msbBits]
  cases r with
  | true => simp [frameHeader, frameTrailer, Nat.mul_add]
  | false =>
    simp only [frameHeader, frameTrailer, Bool.false_eq_true, if_false, List.length_cons,
      List.length_nil]
    omega

/-- Settles O25: the big step is header, loop and trailer, and the loop sends the frame's body. -/
theorem sendAppendsItsFrame : Obligations.SendAppendsItsFrame := fun v n rep s hn =>
  ⟨bigSend_eq v rep s hn, length_frame v n rep⟩

/-- Reading a bit's pulses shifts the bit in (42_protocol_encoder.md R161 (a)). -/
theorem foldl_readPulse_dataBit (acc : Nat) (b : Bool) :
    (dataBit b).foldl readPulse acc = 2 * acc + b.toNat := by
  cases b <;> rfl

/-- The bits below `n` read from their pulses, after the bits read so far. -/
theorem foldl_readPulse_msbBits (v : Work) (n acc : Nat) :
    ((msbBits v n).flatMap dataBit).foldl readPulse acc = acc * 2 ^ n + v.toNat % 2 ^ n := by
  induction n generalizing acc with
  | zero => simp [msbBits, Nat.mod_one]
  | succ n ih =>
    rw [msbBits_succ, List.flatMap_cons, List.foldl_append, foldl_readPulse_dataBit, ih,
      Nat.mod_pow_succ, ← BitVec.testBit_toNat, Nat.toNat_testBit]
    ring

/-- A pulse that no data bit has occurs in no body. -/
theorem count_flatMap_dataBit {p : Pulse} (h : ∀ b, p ∉ dataBit b) (bs : List Bool) :
    (bs.flatMap dataBit).count p = 0 := by
  rw [List.count_eq_zero, List.mem_flatMap]
  rintro ⟨b, -, hb⟩
  exact h b hb

/-- Such a pulse occurs in a frame as often as in its header and its trailer. -/
theorem count_frame {p : Pulse} (h : ∀ b, p ∉ dataBit b) (v : Work) (n : Nat) (r : Bool) :
    (frame v n r).count p = (frameHeader r).count p + frameTrailer.count p := by
  rw [frame, List.count_append, List.count_append, frameBody_eq_flatMap, count_flatMap_dataBit h,
    Nat.add_zero]

/-- Settles O26: the body as the pulses of the bits, read back bit by bit, and the pulses that only
the header and the trailer have. -/
theorem frameShapeAndReadback : Obligations.FrameShapeAndReadback := by
  intro v n rep hn
  refine ⟨(msbBits v n).flatMap dataBit, ?_, ?_, fun i hi => ?_, ?_, ?_, ?_, ?_⟩
  · rw [frame, frameBody_eq_flatMap]
    rfl
  · rw [length_flatMap_dataBit, length_msbBits]
  · exact getElem?_flatMap_dataBit _ (by simp [msbBits, hi])
  · rw [readBody, foldl_readPulse_msbBits, Nat.zero_mul, Nat.zero_add]
  all_goals
    rw [count_frame (by decide)]
    cases rep <;> decide

end Sys2Proof.Machine
end

section
/-! SUPPORT. The runs of a busy block, as the pulse level sees them and in the ticks of their
pulses, with the settled statement that every running command ends (41_pulse_sequencer.md). -/

namespace Sys2Proof.Machine

/-! ### Runs of a busy block with no reset to come -/

/-- The block is busy for `k` steps. -/
def BusyFor (k : Nat) (s : State) : Prop := ∀ j < k, (busyStep^[j] s).ph ≠ .idle

theorem KeepsHost.trans {s t u : State} (h : KeepsHost s t) (k : KeepsHost t u) : KeepsHost s u :=
  ⟨k.statusReads.trans h.statusReads, k.host.trans h.host, k.rstIn.trans h.rstIn⟩

/-- A busy block leaves the host's side alone for any number of steps. -/
theorem busyStep_iterate_keepsHost (k : Nat) (s : State) : KeepsHost s (busyStep^[k] s) := by
  induction k with
  | zero => exact ⟨rfl, rfl, rfl⟩
  | succ k ih =>
    rw [Function.iterate_succ_apply']
    exact ih.trans (busyStep_keepsHost _)

/-- The run of a busy block. -/
theorem BusyFor.runsTo {k : Nat} {s : State} (h : BusyFor k s) (hr : s.rstIn = []) :
    RunsTo k s (busyStep^[k] s) := by
  induction k generalizing s with
  | zero => exact runsTo_zero s
  | succ k ih =>
    have hlow : rstNow s = false := by rw [rstNow, hr, List.headD_nil]
    have hstep : step s = .next (busyStep s) := by
      rw [step_of_busy hlow (h 0 k.succ_pos), popRst_of_nil hr]
    have hrest : BusyFor k (busyStep s) := fun j hj => h (j + 1) (Nat.succ_lt_succ hj)
    exact runsTo_succ hstep (ih hrest ((busyStep_keepsHost s).rstIn.trans hr))

/-! ### The time of the pulses (00_scope.md R17) -/

/-- The time of `y`, its running delay included, is that of the pulses emitted since `s`. -/
structure Accounted (s y : State) : Prop where
  params : y.params = s.params
  time : ∃ ps, y.trace = s.trace ++ ps ∧ y.now + y.dly = s.now + pulsesTicks s.params ps

theorem pulsesTicks_append (p : Params) (ps qs : List Pulse) :
    pulsesTicks p (ps ++ qs) = pulsesTicks p ps + pulsesTicks p qs := by
  simp [pulsesTicks]

/-- A busy step keeps the account: a tick moves a tick from the delay to the time, and a control
step charges the delay of the pulse it emits. -/
theorem Accounted.of_busyStep {s y : State} (h : Accounted s y) : Accounted s (busyStep y) := by
  obtain ⟨hp, ps, htrace, htime⟩ := h
  by_cases hd : y.dly = 0
  · obtain ⟨⟨hparams, -⟩, -, -, -, hnow, -⟩ := (controlStep_keeps y).1
    rw [busyStep_of_dly_eq_zero hd]
    refine ⟨hparams.trans hp, ?_⟩
    rcases controlStep_records y with ⟨q, d, ht, -, hdly⟩ | ⟨ht, -, hdly⟩
    · refine ⟨ps ++ [⟨q, d⟩], by rw [ht, htrace, List.append_assoc], ?_⟩
      rw [pulsesTicks_append, hnow, hdly, hp]
      simp only [pulsesTicks, List.map_cons, List.map_nil, List.sum_cons, List.sum_nil] at htime ⊢
      omega
    · exact ⟨ps, ht.trans htrace, by rw [hnow, hdly, htime]⟩
  · have hpos : 0 < y.dly := Nat.pos_of_ne_zero hd
    rw [busyStep_of_dly_pos hpos, tick_eq]
    exact ⟨hp, ps, htrace, by simp only; omega⟩

theorem Accounted.of_busyStep_iterate {s t : State} (h : Accounted s t) (k : Nat) :
    Accounted s (busyStep^[k] t) := by
  induction k with
  | zero => exact h
  | succ k ih =>
    rw [Function.iterate_succ_apply']
    exact ih.of_busyStep

/-! ### What the pulse level sees of a run (00_scope.md R18) -/

/-- The pulse level does not see a tick. -/
theorem pulseView_tick (s : State) : pulseView (tick s) = pulseView s := by
  rw [tick_eq]
  rfl

/-- The pulse level sees the phase. -/
theorem ph_eq_of_pulseView_eq {s b : State} (h : pulseView s = pulseView b) : s.ph = b.ph := by
  have hph : (pulseView s).ph = (pulseView b).ph := congrArg State.ph h
  exact hph

/-- What the pulse level sees decides what it sees of the control step. -/
theorem pulseView_controlStep {s b : State} (h : pulseView s = pulseView b) :
    pulseView (controlStep s) = pulseView (controlStep b) := by
  have haction (x : Phase) (y : State) :
      pulseView (controlIn x y) = pulseView (controlIn x (pulseView y)) := by
    cases x <;> rfl
  rw [controlStep_eq, controlStep_eq b, haction, haction b.ph b, h, ph_eq_of_pulseView_eq h]

/-- While its delay runs, a block looks the same to the pulse level. -/
theorem busyStep_iterate_delay {n : Nat} {s : State} (h : n ≤ s.dly) :
    pulseView (busyStep^[n] s) = pulseView s ∧ (busyStep^[n] s).dly = s.dly - n := by
  induction n with
  | zero => exact ⟨rfl, rfl⟩
  | succ n ih =>
    obtain ⟨hview, hdly⟩ := ih (Nat.le_of_succ_le h)
    rw [Function.iterate_succ_apply', busyStep_of_dly_pos (by omega), pulseView_tick, hview,
      tick_eq]
    exact ⟨rfl, by simp only; omega⟩

/-- From `t` the block comes, busy on the way, to a state with no delay left that the pulse level
sees as `b`. -/
def GetsTo (t b : State) : Prop :=
  ∃ k, BusyFor k t ∧ (busyStep^[k] t).dly = 0 ∧ pulseView (busyStep^[k] t) = pulseView b

theorem GetsTo.congr {t b c : State} (h : GetsTo t b) (hv : pulseView b = pulseView c) :
    GetsTo t c := by
  obtain ⟨k, hb, hd, hview⟩ := h
  exact ⟨k, hb, hd, hview.trans hv⟩

/-- A busy block runs the delay it has. -/
theorem getsTo_of_busyFor {k : Nat} {t : State} (hb : BusyFor k t)
    (hi : (busyStep^[k] t).ph = .idle → (busyStep^[k] t).dly = 0) :
    GetsTo t (busyStep^[k] t) := by
  generalize hy : busyStep^[k] t = y at hi
  have hsplit (j : Nat) : busyStep^[j + k] t = busyStep^[j] y := by
    rw [Function.iterate_add_apply, hy]
  refine ⟨y.dly + k, fun j hj => ?_, ?_, ?_⟩
  · by_cases hjk : j < k
    · exact hb j hjk
    · obtain ⟨j, rfl⟩ := Nat.exists_eq_add_of_le' (Nat.le_of_not_lt hjk)
      have hview := (busyStep_iterate_delay (n := j) (s := y) (by omega)).1
      rw [hsplit, ph_eq_of_pulseView_eq hview]
      intro h
      have := hi h
      omega
  · rw [hsplit, (busyStep_iterate_delay le_rfl).2, Nat.sub_self]
  · rw [hsplit, (busyStep_iterate_delay le_rfl).1]

/-- Every run starts where it stands. -/
theorem getsTo_self {t : State} (hi : t.ph = .idle → t.dly = 0) : GetsTo t t :=
  getsTo_of_busyFor (k := 0) nofun hi

/-- A command ends without delay. -/
theorem controlStep_dly_of_idle {s : State} (hp : s.ph ≠ .idle) (hd : s.dly = 0)
    (hi : (controlStep s).ph = .idle) : (controlStep s).dly = 0 := by
  rcases controlStep_silent_or_done hp with ⟨-, -, hbusy⟩ | ⟨-, e⟩
  · exact absurd hi hbusy
  · rw [e]
    exact hd

/-- A busy block makes its next control step and runs the delay that follows. -/
theorem GetsTo.controlStep {t b : State} (h : GetsTo t b) (hp : b.ph ≠ .idle) :
    GetsTo t (controlStep b) := by
  obtain ⟨k, hb, hd, hview⟩ := h
  have hph : (busyStep^[k] t).ph ≠ .idle := by
    rwa [ph_eq_of_pulseView_eq hview]
  have hstep : busyStep^[k + 1] t = Machine.controlStep (busyStep^[k] t) := by
    rw [Function.iterate_succ_apply', busyStep_of_dly_eq_zero hd]
  have hb' : BusyFor (k + 1) t := fun j hj =>
    (Nat.lt_succ_iff_lt_or_eq.mp hj).elim (hb j) fun e => e ▸ hph
  refine (getsTo_of_busyFor hb' ?_).congr ?_
  · rw [hstep]
    exact controlStep_dly_of_idle hph hd
  · rw [hstep]
    exact pulseView_controlStep hview

/-! ### Every running command ends (41_pulse_sequencer.md section 4) -/

/-- An upper bound of the control steps that a phase and a count still have; a bit phase whose count
is 0, which no run from reset reaches, counts round from 0 to 63. -/
def controlStepsLeft (c : BitVec 6) : Phase → Nat
  | .idle => 0
  | .done => 1
  | .trlS => 2
  | .trlM => 3
  | .bitS => 2 * (c - 1).toNat + 4
  | .bitM => 2 * (c - 1).toNat + 5
  | .hdrS => 200
  | .hdrM => 201

/-- After the header or a bit, two steps for each bit left and three for the trailer. -/
theorem controlStepsLeft_afterHdr (c : BitVec 6) :
    controlStepsLeft c (afterHdr c) ≤ 2 * c.toNat + 3 := by
  by_cases hc : c = 0
  · simp [hc, afterHdr, controlStepsLeft]
  · simp only [afterHdr, hc, if_false, controlStepsLeft]
    bv_omega

/-- A control step of a busy block leaves fewer. -/
theorem controlStepsLeft_controlStep {s : State} (hp : s.ph ≠ .idle) :
    controlStepsLeft (controlStep s).bcnt (controlStep s).ph < controlStepsLeft s.bcnt s.ph := by
  rw [controlStep_eq]
  cases hx : s.ph with
  | idle => exact absurd hx hp
  | hdrM => exact Nat.lt_succ_self _
  | hdrS =>
    have hlt := s.bcnt.isLt
    have hle := controlStepsLeft_afterHdr s.bcnt
    change controlStepsLeft s.bcnt (afterHdr s.bcnt) < 200
    omega
  | bitM => exact Nat.lt_succ_self _
  | bitS => exact Nat.lt_succ_of_le (controlStepsLeft_afterHdr (s.bcnt - 1))
  | trlM => exact Nat.lt_succ_self _
  | trlS => exact Nat.lt_succ_self _
  | done => exact Nat.lt_succ_self _

/-- A busy block gets to the end of its command, with the responses as they are until then. -/
theorem GetsTo.finish {t b : State} (h : GetsTo t b) (hp : b.ph ≠ .idle) :
    ∃ c, c.responses = b.responses ∧ GetsTo t (finish c) := by
  induction hn : controlStepsLeft b.bcnt b.ph using Nat.strong_induction_on generalizing b with
  | _ n ih =>
    have hnext := h.controlStep hp
    rcases controlStep_silent_or_done hp with ⟨hresp, -, hbusy⟩ | ⟨-, e⟩
    · obtain ⟨c, hc, hend⟩ := ih _ (hn ▸ controlStepsLeft_controlStep hp) hnext hbusy rfl
      exact ⟨c, hc.trans hresp, hend⟩
    · exact ⟨b, rfl, e ▸ hnext⟩

/-- Settles O30: the run to the DONE step, which the count of control steps left bounds. -/
theorem busyBlockReachesIdle : Obligations.BusyBlockReachesIdle := by
  intro s hp hr
  obtain ⟨c, hc, k, hbusy, hd, hview⟩ := (getsTo_self fun hi => absurd hi hp).finish hp
  have hresp : (busyStep^[k] s).responses = c.responses ++ [.ok] := congrArg State.responses hview
  exact ⟨k, busyStep^[k] s, hbusy.runsTo hr, congrArg State.ph hview, hd, congrArg State.err hview,
    hc ▸ hresp, (busyStep_iterate_keepsHost k s).host⟩

end Sys2Proof.Machine
end

section
/-! SUPPORT. Every command's run against its big step, with the settled statements about whole
commands: the refinement, the duration of a frame, the rounding of a delay and the waveform of a
pulse (00_scope.md R18, 41_pulse_sequencer.md R132, R141, 42_protocol_encoder.md R167). -/

namespace Sys2Proof.Machine

/-! ### Control steps at the pulse level (42_protocol_encoder.md R158) -/

section
variable {t b : State} {x y : Phase} {d : Nat}

/-- The control step of a phase that emits a mark. -/
theorem GetsTo.mark (h : GetsTo t (setPhase x b)) (hx : x ≠ .idle)
    (ha : controlIn x (setPhase x b) = setPhase y (Machine.mark d (setPhase x b))) :
    GetsTo t (setPhase y (markPulse d b)) := by
  have hnext := h.controlStep hx
  rw [controlStep_eq, setPhase_ph, ha, mark_eq] at hnext
  exact hnext.congr rfl

/-- The control step of a phase that emits a space and no data bit. -/
theorem GetsTo.space (h : GetsTo t (setPhase x b)) (hx : x ≠ .idle)
    (ha : controlIn x (setPhase x b) = setPhase y (Machine.space d (setPhase x b))) :
    GetsTo t (setPhase y (spacePulse d b)) := by
  have hnext := h.controlStep hx
  rw [controlStep_eq, setPhase_ph, ha, space_eq] at hnext
  exact hnext.congr rfl

/-- The two control steps of a data bit are one pass of the loop of SEND. -/
theorem GetsTo.bit (h : GetsTo t (setPhase .bitM b)) :
    GetsTo t (setPhase (afterHdr (b.bcnt - 1)) (bigBit b)) := by
  have hspace := (h.mark (y := .bitS) nofun rfl).controlStep nofun
  rw [controlStep_eq, setPhase_ph, controlIn, space_eq] at hspace
  exact hspace.congr rfl

/-- The DONE step gives the response OK. -/
theorem GetsTo.done (h : GetsTo t (setPhase .done b)) :
    GetsTo t (setPhase .idle (respond .ok b)) := by
  have hnext := h.controlStep nofun
  rw [controlStep_eq] at hnext
  exact hnext

end

/-- The loop of SEND at tick level. -/
theorem GetsTo.bits {t b : State} {n : Nat} (hn : b.bcnt.toNat = n)
    (h : GetsTo t (setPhase (afterHdr b.bcnt) b)) : GetsTo t (setPhase .trlM (bigBits n b)) := by
  induction n generalizing b with
  | zero =>
    have hzero : b.bcnt = 0 := BitVec.eq_of_toNat_eq hn
    rwa [hzero] at h
  | succ n ih =>
    have hbit : afterHdr b.bcnt = .bitM := by
      rw [afterHdr, if_neg]
      rintro hzero
      rw [hzero] at hn
      exact absurd hn (Nat.succ_ne_zero n).symm
    have hcount : (bigBit b).bcnt = b.bcnt - 1 := by rw [bigBit_eq]
    rw [hbit] at h
    refine ih ?_ (hcount ▸ h.bit)
    rw [hcount]
    bv_omega

/-- The header of SEND at tick level, to the first data bit or the trailer. -/
theorem GetsTo.header {t : State} {v : Work} {n : Nat} {r : Bool} {s : State}
    (h : GetsTo t (acceptSend v n r s)) :
    GetsTo t (setPhase (afterHdr (BitVec.ofNat 6 n)) (bigHeader r (loadEncoder v n s))) := by
  cases r with
  | true => exact h
  | false => exact (GetsTo.mark (y := .hdrS) h nofun rfl).space nofun rfl

/-- An accepted SEND gets to its big step. -/
theorem getsTo_bigSend (v : Work) {n : Nat} (r : Bool) {s : State} (hp : s.ph = .idle)
    (hn : n ≤ 32) : GetsTo (acceptSend v n r s) (bigSend jvc v n r s) := by
  obtain ⟨c, hc⟩ := bigHeader_eq r (loadEncoder v n s)
  have hcount : (bigHeader r (loadEncoder v n s)).bcnt = BitVec.ofNat 6 n := by rw [hc]; rfl
  have hstart : GetsTo (acceptSend v n r s) (acceptSend v n r s) :=
    getsTo_self fun hi => absurd hi (firstPhase_ne_idle _ _)
  have hloop := GetsTo.bits (by rw [hcount, toNat_ofNat_bcnt hn]) (hcount ▸ hstart.header)
  have hend := ((hloop.mark (y := .trlS) nofun rfl).space (y := .done) nofun rfl).done
  rw [← bigSend_of_le v r s hn, bigSend_eq v r s hn] at hend
  rw [bigSend_eq v r s hn]
  exact hend.congr (by rw [setPhase, hp])

/-! ### The refinement (00_scope.md R18) -/

/-- The run of a command from its acceptance to IDLE, against its big step. -/
def RefinesBigStep (i : Instr) (s : State) : Prop :=
  ∃ (t u : State) (k : Nat) (ps : List Pulse), exec i s = .next t ∧ RunsTo k t u ∧
    u.ph = .idle ∧ u.dly = 0 ∧ u.host = s.host ∧ pulseView u = pulseView (bigStep i s) ∧
    u.trace = s.trace ++ ps ∧ u.now = s.now + pulsesTicks s.params ps ∧
    ∀ j < k, ∃ x, RunsTo j t x ∧ x.ph ≠ .idle

/-- A run that gets to the big step is the refinement's run. -/
theorem refinesBigStep_of_getsTo {i : Instr} {s t b : State} (he : exec i s = .next t)
    (hbig : bigStep i s = b) (hb : b.ph = .idle) (ha : Accounted s t) (hr : s.rstIn = [])
    (hg : GetsTo t b) : RefinesBigStep i s := by
  obtain ⟨-, rfl⟩ := exec_eq_next_iff.mp he
  subst hbig
  obtain ⟨k, hbusy, hd, hview⟩ := hg
  have hhost := acceptStep_keepsHost i s
  have hr' : (acceptStep i s).rstIn = [] := hhost.rstIn.trans hr
  obtain ⟨-, ps, htrace, htime⟩ := ha.of_busyStep_iterate k
  rw [hd, Nat.add_zero] at htime
  refine ⟨_, _, k, ps, he, hbusy.runsTo hr', (ph_eq_of_pulseView_eq hview).trans hb, hd,
    (busyStep_iterate_keepsHost k _).host.trans hhost.host, hview, htrace, htime, fun j hj => ?_⟩
  have hbefore : BusyFor j (acceptStep i s) := fun l hl => hbusy l (hl.trans hj)
  exact ⟨_, hbefore.runsTo hr', hbusy j hj⟩

/-- An acceptance that emits nothing and starts no delay is accounted for. -/
theorem accounted_of_no_pulse {s t : State} (hp : t.params = s.params) (ht : t.trace = s.trace)
    (hn : t.now = s.now) (hd : t.dly = 0) : Accounted s t :=
  ⟨hp, [], by rw [ht, List.append_nil], by rw [hn, hd]; rfl⟩

/-- The acceptance of a pulse is charged its delay. -/
theorem accounted_startPulse (q : PulseKind) (d : Nat) (s : State) :
    Accounted s (startPulse q d s) :=
  ⟨rfl, [⟨q, d⟩], rfl, rfl⟩

/-- The state after a pulse's command. -/
def endPulse (q : PulseKind) (d : Nat) (s : State) : State :=
  respond .ok { s with conn := pulseConn q, trace := s.trace ++ [⟨q, d⟩] }

/-- A pulse's command in one big step. -/
theorem bigStep_pulseCommand (q : PulseKind) (d : Int) (s : State) :
    bigStep (pulseCommand q d) s =
      if d < 0 then reject .eDuration s else endPulse q d.toNat s := by
  cases q <;> rfl

/-- The acceptance of a pulse gets to its big step. -/
theorem getsTo_endPulse (q : PulseKind) (d : Nat) {s : State} (hp : s.ph = .idle) :
    GetsTo (startPulse q d s) (endPulse q d s) := by
  have hstart : GetsTo (startPulse q d s) (startPulse q d s) := getsTo_self nofun
  have hend := GetsTo.done (b := startPulse q d s) hstart
  refine hend.congr ?_
  rw [endPulse, ← hp]
  rfl

/-- SEND's checks pass exactly for protocol JVC and a count of 0 to 32 (42_protocol_encoder.md
R152). -/
theorem sendRejection_eq_none {p : BitVec 4} {n : Int} (h : sendRejection p n = none) :
    p = jvc ∧ 0 ≤ n ∧ n ≤ 32 := by
  unfold sendRejection at h
  split_ifs at h with hp hn
  exact ⟨not_not.mp hp, by omega, by omega⟩

section
variable {s : State} (hp : s.ph = .idle) (hd : s.dly = 0) (hr : s.rstIn = [])
include hp hd hr

/-- A rejection is a big step of its own. -/
theorem refinesBigStep_of_reject {i : Instr} {r : Response} (ha : acceptStep i s = reject r s)
    (hb : bigStep i s = reject r s) : RefinesBigStep i s :=
  refinesBigStep_of_getsTo ((exec_of_idle hp).trans (congrArg _ ha)) hb hp
    (accounted_of_no_pulse rfl rfl rfl hd) hr (getsTo_self fun _ => hd)

/-- CFG ends at its acceptance, with its big step's registers but for the draw. -/
theorem refinesBigStep_cfg (f : Int) : RefinesBigStep (.cfg f) s := by
  by_cases hf : CfgRejected s.params f
  · exact refinesBigStep_of_reject hp hd hr (acceptStep_cfg_of_rejected hf) (if_pos hf)
  · have ha := acceptStep_cfg_of_not_rejected hf
    have hend : GetsTo (respond .ok (drawCounter (configure (topCount s.params f) s)))
        (respond .ok (configure (topCount s.params f) s)) :=
      GetsTo.congr (getsTo_self fun _ => hd) rfl
    exact refinesBigStep_of_getsTo ((exec_of_idle hp).trans (congrArg _ ha)) (if_neg hf) hp
      (accounted_of_no_pulse rfl rfl rfl hd) hr hend

/-- SEND is rejected, or runs its header, its loop and its trailer. -/
theorem refinesBigStep_send (p : BitVec 4) (v : Work) (n : Int) (r : Bool) :
    RefinesBigStep (.send p v n r) s := by
  cases hc : sendRejection p n with
  | some q =>
    refine refinesBigStep_of_reject (r := q) hp hd hr ?_ ?_
    · simp only [acceptStep, sendStep, hc]
    · simp only [bigStep, bigSend, hc]
  | none =>
    obtain ⟨rfl, h0, h32⟩ := sendRejection_eq_none hc
    obtain ⟨n, rfl⟩ := Int.eq_ofNat_of_zero_le h0
    have hn : n ≤ 32 := Int.ofNat_le.mp h32
    have hb : (bigSend jvc v n r s).ph = .idle := by
      rw [bigSend_eq v r s hn]
      exact hp
    exact refinesBigStep_of_getsTo (exec_send_of_le v r hp hn) rfl hb
      (accounted_of_no_pulse rfl rfl rfl hd) hr (getsTo_bigSend v r hp hn)

/-- A pulse's command is rejected, or runs its delay and the DONE step. -/
theorem refinesBigStep_pulseCommand (q : PulseKind) (d : Int) :
    RefinesBigStep (pulseCommand q d) s := by
  have hb := bigStep_pulseCommand q d s
  by_cases h0 : d < 0
  · rw [if_pos h0] at hb
    exact refinesBigStep_of_getsTo (exec_pulseCommand_of_neg q hp h0) hb hp
      (accounted_of_no_pulse rfl rfl rfl hd) hr (getsTo_self fun _ => hd)
  · rw [if_neg h0] at hb
    exact refinesBigStep_of_getsTo (exec_pulseCommand_of_nonneg q hp (Int.not_lt.mp h0)) hb hp
      (accounted_startPulse q _ s) hr (getsTo_endPulse q _ hp)

end

/-- Settles O28, command by command. -/
theorem tickLevelRefinesPulseLevel : Obligations.TickLevelRefinesPulseLevel := by
  intro i s hp hd hr
  cases i with
  | cfg f => exact refinesBigStep_cfg hp hd hr f
  | send p v n r => exact refinesBigStep_send hp hd hr p v n r
  | mark d => exact refinesBigStep_pulseCommand hp hd hr .mark d
  | space d => exact refinesBigStep_pulseCommand hp hd hr .space d

/-! ### Delays and the duration of a frame (41_pulse_sequencer.md R132,
42_protocol_encoder.md R167) -/

/-- A delay at a whole number of megahertz. -/
theorem delayTicks_of_mhz {p : Params} {mhz : Nat} (h : (p.fSys : Nat) = mhz * 1000000) (d : Nat) :
    delayTicks p d = d * mhz := by
  rw [delayTicks, h, ← Nat.mul_assoc, Nat.mul_div_cancel _ (by decide)]

/-- Settles O36: the division of D(d), exact at a multiple of its divisor. -/
theorem delayTicksRounding : Obligations.DelayTicksRounding := by
  refine fun d s => ⟨rfl, fun mhz h => delayTicks_of_mhz h d, Nat.div_mul_le_self _ _, ?_,
    delayTicks_zero s.params⟩
  rw [waitUs_dly, delayTicks, Nat.mul_comm (_ + 1)]
  exact Nat.lt_mul_div_succ _ (by decide)

/-- Pulses at a whole number of megahertz. -/
theorem pulsesTicks_of_mhz {p : Params} {mhz : Nat} (h : (p.fSys : Nat) = mhz * 1000000)
    (ps : List Pulse) : pulsesTicks p ps = pulsesUs ps * mhz := by
  simp only [pulsesTicks, pulsesUs, delayTicks_of_mhz h, ← List.sum_map_mul_right]

theorem pulsesUs_append (ps qs : List Pulse) : pulsesUs (ps ++ qs) = pulsesUs ps + pulsesUs qs := by
  simp [pulsesUs]

/-- The length of the data bits, by the ones among them. -/
theorem pulsesUs_flatMap_dataBit (bs : List Bool) : pulsesUs (bs.flatMap dataBit) =
    600 * bs.length + 1600 * bs.count true + 550 * (bs.length - bs.count true) := by
  induction bs with
  | nil => rfl
  | cons b bs ih =>
    have hle : bs.count true ≤ bs.length := List.count_le_length
    have hbit : pulsesUs (dataBit b) = 600 + bitSpaceUs b := rfl
    rw [List.flatMap_cons, pulsesUs_append, ih, hbit, List.length_cons]
    cases b with
    | true =>
      rw [List.count_cons_self, bitSpaceUs, if_pos rfl, oneSpaceUs]
      omega
    | false =>
      rw [List.count_cons_of_ne (by decide), bitSpaceUs, if_neg (by decide), zeroSpaceUs]
      omega

/-- The number of ones among the first bits. -/
theorem count_true_msbBits (v : Work) (n : Nat) :
    (msbBits v n).count true = (List.range n).countP v.getLsbD := by
  induction n with
  | zero => rfl
  | succ n ih =>
    rw [msbBits_succ, List.count_cons, ih, List.range_succ, List.countP_append,
      List.countP_singleton]
    simp

/-- The ones that a frame carries are those of the value's low bits (42_protocol_encoder.md
R163). -/
theorem countP_lowBits (v : Work) (n : Nat) :
    (List.range n).countP (lowBits v n).getLsbD = (List.range n).countP v.getLsbD :=
  List.countP_congr fun i hi => by simp [getLsbD_lowBits, List.mem_range.mp hi]

/-- The total of a frame's pulses (42_protocol_encoder.md R167). -/
theorem pulsesUs_frame (v : Work) (n : Nat) (r : Bool) :
    pulsesUs (frame v n r) = frameDurationUs v n r := by
  have htrailer : pulsesUs frameTrailer = 600 := rfl
  have hheader : pulsesUs (frameHeader r) = if r then 0 else 12000 := by cases r <;> rfl
  rw [frame, pulsesUs_append, pulsesUs_append, hheader, htrailer, frameBody_eq_flatMap,
    pulsesUs_flatMap_dataBit, length_msbBits, count_true_msbBits, frameDurationUs]
  ring

/-- The bounds of a frame of 16 bits with its header (42_protocol_encoder.md R167). -/
theorem frameDurationUs_bounds (v : Work) :
    31000 ≤ frameDurationUs v 16 false ∧ frameDurationUs v 16 false ≤ 47800 := by
  have hle : (List.range 16).countP v.getLsbD ≤ 16 := List.countP_le_length
  simp only [frameDurationUs, Bool.false_eq_true, if_false]
  omega

/-- Settles O29: the sum over the frame's pulses, and the run of SEND, whose pulses are the frame
and whose time is theirs. -/
theorem frameDuration : Obligations.FrameDuration := by
  intro v n rep hn ones T
  have hT : T = frameDurationUs v n rep := by
    have hones : ones = (List.range n).countP v.getLsbD := countP_lowBits v n
    rw [frameDurationUs, ← hones]
  refine ⟨(pulsesUs_frame v n rep).trans hT.symm, ?_, fun s mhz hp hd hr hmhz => ?_⟩
  · rintro rfl rfl
    exact hT ▸ frameDurationUs_bounds v
  · obtain ⟨t, u, k, ps, he, hrun, hph, -, -, hview, htrace, hnow, hbusy⟩ :=
      refinesBigStep_send hp hd hr jvc v n rep
    have hbig : bigStep (.send jvc v n rep) s = _ := bigSend_eq v rep s hn
    rw [hbig] at hview
    have hresp : u.responses = s.responses ++ [.ok] := congrArg State.responses hview
    have hframe : u.trace = s.trace ++ frame v n rep := congrArg State.trace hview
    have hps : ps = frame v n rep := List.append_cancel_left (htrace.symm.trans hframe)
    refine ⟨t, u, k, he, hrun, hph, hresp, ?_, hbusy⟩
    rw [hnow, hps, pulsesTicks_of_mhz hmhz, pulsesUs_frame, hT, hmhz, ← Nat.mul_assoc,
      Nat.mul_div_cancel _ (by decide)]

/-! ### The waveform of a pulse (41_pulse_sequencer.md R141) -/

/-- The waveform of a carrier is its level phase by phase. -/
theorem carrierWave_eq (top cmp phi n : Nat) : carrierWave top cmp phi n =
    (List.range n).map fun k => .ofBool (highPhase top cmp ((phi + k) % (2 * top))) := rfl

/-- A configured carrier runs, and is high for less than half of its period. -/
theorem CarrierConfigured.timerRuns {s : State} (h : CarrierConfigured s) :
    TimerRuns s ∧ s.cmp < s.top := by
  obtain ⟨-, -, hm, hp, ht, -, hc⟩ := h
  exact ⟨⟨hm, hp, ht⟩, by omega⟩

/-- The phase is a matter of the counter, its direction and TOP. -/
theorem phase_congr {s t : State} (hc : t.cnt = s.cnt) (hd : t.dir = s.dir) (ht : t.top = s.top) :
    phase t = phase s := by
  rw [phase, phase, hc, hd, ht]

/-- A pulse's delay: its ticks, its waveform and the phase at its end. -/
theorem exists_runsTo_pulse (q : PulseKind) (d : Nat) {s : State} (hr : s.rstIn = [])
    (hc : CarrierConfigured s) (hl : CounterLegal s) :
    ∃ u w, RunsTo (delayTicks s.params d) (startPulse q d s) u ∧ u.ph = .done ∧ u.dly = 0 ∧
      u.now = s.now + delayTicks s.params d ∧ u.wave = s.wave ++ w ∧
      phase u = (phase s + delayTicks s.params d) % (2 * s.top) ∧
      (q = .mark → w = carrierWave s.top s.cmp (phase s) (delayTicks s.params d)) ∧
      (q = .space → w = List.replicate (delayTicks s.params d) .low) := by
  obtain ⟨hruns, hcmp⟩ := hc.timerRuns
  obtain ⟨hdir, hlvl, -⟩ := hc
  obtain ⟨w, hrun, -, hlow, hhigh⟩ :=
    runsTo_delay (delayTicks s.params d) (startPulse q d s) hr nofun le_rfl
  have hcount (k : Nat) := counterTick_iterate_congr k (s := s) (t := startPulse q d s)
    rfl rfl rfl rfl rfl rfl
  refine ⟨_, w, hrun, rfl, Nat.sub_self _, rfl, rfl, ?_, ?_, ?_⟩
  · obtain ⟨hcnt, hdir', -⟩ := hcount (delayTicks s.params d)
    rw [← phase_counterTick_iterate hruns hl]
    refine phase_congr hcnt hdir' ?_
    rw [counterTick_iterate hruns hl]
    rfl
  · rintro rfl
    rw [hhigh hdir rfl, carrierWave_eq]
    refine List.map_congr_left fun k _ => ?_
    obtain ⟨-, -, hcarrier⟩ := hcount k
    rw [hcarrier, counterTick_iterate hruns hl, carrier_atPhase hruns hcmp]
  · rintro rfl
    rw [hlow hdir rfl]
    exact congrArg (fun b => List.replicate _ (PinLevel.ofBool b)) hlvl

/-- Settles O35: the delay of the pulse that MARK or SPACE starts. -/
theorem pulseWaveform : Obligations.PulseWaveform := by
  intro d s hp hr hc hl ticks
  have hexec (q : PulseKind) : exec (pulseCommand q d) s = .next (startPulse q d s) :=
    exec_pulseCommand_of_nonneg q hp d.cast_nonneg
  obtain ⟨u, w, hrun, hph, hd, hnow, hwave, hphase, hw, -⟩ := exists_runsTo_pulse .mark d hr hc hl
  obtain ⟨u', w', hrun', hph', hd', hnow', hwave', -, -, hw'⟩ :=
    exists_runsTo_pulse .space d hr hc hl
  exact ⟨⟨_, u, hexec .mark, hrun, hph, hd, hnow, hw rfl ▸ hwave, hphase⟩,
    ⟨_, u', hexec .space, hrun', hph', hd', hnow', hw' rfl ▸ hwave'⟩⟩

end Sys2Proof.Machine
end
